-- ==== Sys2Proof/Word.lean ====
section
/-! DEFINITION. The word types of the block (spec/00_scope.md R5, R8). -/

namespace Sys2Proof

/-- "a 16-bit unsigned value, the architectural unit of memory and register storage" (R5). -/
abbrev Word := BitVec 16

/-- The unit of the character ports and of an image file (R36, R39, R275). -/
abbrev Byte := BitVec 8

/-- A 3-bit register field; it numbers R0 to R7 (R21, R81). -/
abbrev RegNum := BitVec 3

end Sys2Proof
end

