-- ==== Sys2Proof/Syntax.lean ====
section
/-! DEFINITION. The instructions: one constructor per row of spec/opcode_table.json (R82, R88).

An instruction keeps EVERY bit of its word but the fixed ones: the fields of R81 under their names, and the bits the
block ignores (R87) as the arguments `x`, `xHi`, `xLo`. The ignored bits reach nothing but FAULT.ir, which R241 makes
the whole fetched word. (Log entry 9.) -/

namespace Sys2Proof

inductive Instr where
  /-- BR: `cond` is bits 11..9 (n, z, p), R180. -/
  | br (cond : BitVec 3) (pcOffset9 : BitVec 9)
  /-- ADD (register), R131; `x` is bits 4..3. -/
  | add (dr sr1 sr2 : RegNum) (x : BitVec 2)
  /-- ADD (immediate), R132. -/
  | addImm (dr sr1 : RegNum) (imm5 : BitVec 5)
  /-- LD, R150. -/
  | ld (dr : RegNum) (pcOffset9 : BitVec 9)
  /-- ST, R154; the stored register is the DR field. -/
  | st (sr : RegNum) (pcOffset9 : BitVec 9)
  /-- JSR, R182. -/
  | jsr (pcOffset11 : BitVec 11)
  /-- JSRR, R183; `xHi` is bits 10..9, `xLo` bits 5..0. -/
  | jsrr (baseR : RegNum) (xHi : BitVec 2) (xLo : BitVec 6)
  /-- AND (register), R133; `x` is bits 4..3. -/
  | and (dr sr1 sr2 : RegNum) (x : BitVec 2)
  /-- AND (immediate), R134. -/
  | andImm (dr sr1 : RegNum) (imm5 : BitVec 5)
  /-- LDR, R152. -/
  | ldr (dr baseR : RegNum) (offset6 : BitVec 6)
  /-- STR, R156. -/
  | str (sr baseR : RegNum) (offset6 : BitVec 6)
  /-- RTI, the unused opcode 1000, R230; `x` is bits 11..0. -/
  | rti (x : BitVec 12)
  /-- NOT, R135; `x` is bits 5..0. -/
  | not (dr sr1 : RegNum) (x : BitVec 6)
  /-- LDI, R151. -/
  | ldi (dr : RegNum) (pcOffset9 : BitVec 9)
  /-- STI, R155. -/
  | sti (sr : RegNum) (pcOffset9 : BitVec 9)
  /-- JMP, R185, for BaseR other than 7; `xHi` is bits 11..9, `xLo` bits 5..0. -/
  | jmp (baseR : RegNum) (xHi : BitVec 3) (xLo : BitVec 6)
  /-- RET, R186: the words of opcode 1100 whose BaseR is 7. -/
  | ret (xHi : BitVec 3) (xLo : BitVec 6)
  /-- The reserved opcode 1101, R231; `x` is bits 11..0. -/
  | reserved (x : BitVec 12)
  /-- LEA, R153. -/
  | lea (dr : RegNum) (pcOffset9 : BitVec 9)
  /-- TRAP x20, R201; `x` is bits 11..8, in this row and the next six. -/
  | trapGetc (x : BitVec 4)
  /-- TRAP x21, R202. -/
  | trapOut (x : BitVec 4)
  /-- TRAP x22, R203. -/
  | trapPuts (x : BitVec 4)
  /-- TRAP x23, R204. -/
  | trapIn (x : BitVec 4)
  /-- TRAP x24, R205. -/
  | trapPutsp (x : BitVec 4)
  /-- TRAP x25, R206. -/
  | trapHalt (x : BitVec 4)
  /-- TRAP with any other vector, R207. -/
  | trapUnknown (x : BitVec 4) (trapvect8 : BitVec 8)
  deriving DecidableEq, Repr

end Sys2Proof
end

