-- ==== Sys2Proof/WellFormed.lean ====
section
/-! DEFINITION. Which instructions the decoder can give.

The fields' widths are in their types, so two checks are left: where two rows of the table overlap, the narrower row
takes the word (the notes of the rows RET and TRAP_unknown). -/

namespace Sys2Proof

/-- The six vectors with a service routine, 0x20 to 0x25 (R5, R200). -/
def knownTrapVector (v : BitVec 8) : Bool :=
  0x20 ≤ v.toNat && v.toNat ≤ 0x25

/-- JMP is written with a BaseR other than 7 (BaseR 7 is RET, R186), and the row TRAP_unknown with a vector outside
0x20-0x25 (R207); every other instruction is well formed whatever its fields. -/
def Instr.wellFormed : Instr → Bool
  | .jmp baseR _ _ => baseR != 7
  | .trapUnknown _ v => !knownTrapVector v
  | .br _ _ | .add _ _ _ _ | .addImm _ _ _ | .ld _ _ | .st _ _ | .jsr _ | .jsrr _ _ _ | .and _ _ _ _ | .andImm _ _ _ => true
  | .ldr _ _ _ | .str _ _ _ | .rti _ | .not _ _ _ | .ldi _ _ | .sti _ _ | .ret _ _ | .reserved _ | .lea _ _ => true
  | .trapGetc _ | .trapOut _ | .trapPuts _ | .trapIn _ | .trapPutsp _ | .trapHalt _ => true

end Sys2Proof
end

