-- ==== Sys2Proof/Decode.lean ====
section
/-! DEFINITION. The decoder and the encoder, from the formats of spec/30_encoding.md R82.

Decoding is total: "No word is undecodable" (R89), so there is no encoding to reject; the unused opcodes and the
unknown trap vectors decode to the rows RTI, RESERVED and TRAP_unknown, whose meanings fault. -/

namespace Sys2Proof

/-- bits 15..12: "the opcode as the top four bits" (R80). -/
def opcodeField (w : Word) : BitVec 4 := w.extractLsb' 12 4

/-- bits 11..9: DR, or the register stored, or the BR mask, or JMP's ignored bits (R81). -/
def field11to9 (w : Word) : BitVec 3 := w.extractLsb' 9 3

/-- bits 8..6: SR1 or BaseR (R81). -/
def field8to6 (w : Word) : BitVec 3 := w.extractLsb' 6 3

/-- bits 2..0: SR2 (R81). -/
def field2to0 (w : Word) : BitVec 3 := w.extractLsb' 0 3

/-- bits 4..0: imm5 (R81). -/
def field4to0 (w : Word) : BitVec 5 := w.extractLsb' 0 5

/-- bits 5..0: offset6, or ignored (R81, R87). -/
def field5to0 (w : Word) : BitVec 6 := w.extractLsb' 0 6

/-- bits 8..0: PCoffset9 (R81). -/
def field8to0 (w : Word) : BitVec 9 := w.extractLsb' 0 9

/-- bits 10..0: PCoffset11 (R81). -/
def field10to0 (w : Word) : BitVec 11 := w.extractLsb' 0 11

/-- bits 7..0: trapvect8 (R81). -/
def field7to0 (w : Word) : BitVec 8 := w.extractLsb' 0 8

/-- bits 4..3: ignored in register mode (R87). -/
def field4to3 (w : Word) : BitVec 2 := w.extractLsb' 3 2

/-- bits 10..9: ignored in JSRR (R87). -/
def field10to9 (w : Word) : BitVec 2 := w.extractLsb' 9 2

/-- bits 11..8: ignored in TRAP (R87). -/
def field11to8 (w : Word) : BitVec 4 := w.extractLsb' 8 4

/-- bits 11..0: ignored in the unused opcodes (R87). -/
def field11to0 (w : Word) : BitVec 12 := w.extractLsb' 0 12

/-- TRAP: the vector chooses the row (R200, R207). -/
def decodeTrap (w : Word) : Instr :=
  match field7to0 w with
  | 0x20#8 => .trapGetc (field11to8 w)
  | 0x21#8 => .trapOut (field11to8 w)
  | 0x22#8 => .trapPuts (field11to8 w)
  | 0x23#8 => .trapIn (field11to8 w)
  | 0x24#8 => .trapPutsp (field11to8 w)
  | 0x25#8 => .trapHalt (field11to8 w)
  | v => .trapUnknown (field11to8 w) v

/-- The sixteen dispatch paths of R88; bit 5 chooses within ADD and AND (R84), bit 11 within opcode 0100 (R85), BaseR
between JMP and RET (R186), the vector within TRAP. -/
def decode (w : Word) : Instr :=
  match opcodeField w with
  | 0x0#4 => .br (field11to9 w) (field8to0 w)
  | 0x1#4 =>
    if w.getLsbD 5 then .addImm (field11to9 w) (field8to6 w) (field4to0 w)
    else .add (field11to9 w) (field8to6 w) (field2to0 w) (field4to3 w)
  | 0x2#4 => .ld (field11to9 w) (field8to0 w)
  | 0x3#4 => .st (field11to9 w) (field8to0 w)
  | 0x4#4 =>
    if w.getLsbD 11 then .jsr (field10to0 w)
    else .jsrr (field8to6 w) (field10to9 w) (field5to0 w)
  | 0x5#4 =>
    if w.getLsbD 5 then .andImm (field11to9 w) (field8to6 w) (field4to0 w)
    else .and (field11to9 w) (field8to6 w) (field2to0 w) (field4to3 w)
  | 0x6#4 => .ldr (field11to9 w) (field8to6 w) (field5to0 w)
  | 0x7#4 => .str (field11to9 w) (field8to6 w) (field5to0 w)
  | 0x8#4 => .rti (field11to0 w)
  | 0x9#4 => .not (field11to9 w) (field8to6 w) (field5to0 w)
  | 0xA#4 => .ldi (field11to9 w) (field8to0 w)
  | 0xB#4 => .sti (field11to9 w) (field8to0 w)
  | 0xC#4 =>
    if field8to6 w = 7 then .ret (field11to9 w) (field5to0 w)
    else .jmp (field8to6 w) (field11to9 w) (field5to0 w)
  | 0xD#4 => .reserved (field11to0 w)
  | 0xE#4 => .lea (field11to9 w) (field8to0 w)
  | _ => decodeTrap w

/-- A field with its lowest bit at bit `lo` of the word, the other bits 0. -/
def place {n : Nat} (x : BitVec n) (lo : Nat) : Word := x.setWidth 16 <<< lo

/-- The word of an instruction: the formats of R82, each field at the position R81 gives it, from left (bit 15) to
right (bit 0). -/
def encode : Instr → Word
  | .br cond off => place 0b0000#4 12 ||| place cond 9 ||| place off 0
  | .add dr sr1 sr2 x => place 0b0001#4 12 ||| place dr 9 ||| place sr1 6 ||| place 0b0#1 5 ||| place x 3 ||| place sr2 0
  | .addImm dr sr1 imm => place 0b0001#4 12 ||| place dr 9 ||| place sr1 6 ||| place 0b1#1 5 ||| place imm 0
  | .ld dr off => place 0b0010#4 12 ||| place dr 9 ||| place off 0
  | .st sr off => place 0b0011#4 12 ||| place sr 9 ||| place off 0
  | .jsr off => place 0b0100#4 12 ||| place 0b1#1 11 ||| place off 0
  | .jsrr base xHi xLo => place 0b0100#4 12 ||| place 0b0#1 11 ||| place xHi 9 ||| place base 6 ||| place xLo 0
  | .and dr sr1 sr2 x => place 0b0101#4 12 ||| place dr 9 ||| place sr1 6 ||| place 0b0#1 5 ||| place x 3 ||| place sr2 0
  | .andImm dr sr1 imm => place 0b0101#4 12 ||| place dr 9 ||| place sr1 6 ||| place 0b1#1 5 ||| place imm 0
  | .ldr dr base off => place 0b0110#4 12 ||| place dr 9 ||| place base 6 ||| place off 0
  | .str sr base off => place 0b0111#4 12 ||| place sr 9 ||| place base 6 ||| place off 0
  | .rti x => place 0b1000#4 12 ||| place x 0
  | .not dr sr1 x => place 0b1001#4 12 ||| place dr 9 ||| place sr1 6 ||| place x 0
  | .ldi dr off => place 0b1010#4 12 ||| place dr 9 ||| place off 0
  | .sti sr off => place 0b1011#4 12 ||| place sr 9 ||| place off 0
  | .jmp base xHi xLo => place 0b1100#4 12 ||| place xHi 9 ||| place base 6 ||| place xLo 0
  | .ret xHi xLo => place 0b1100#4 12 ||| place xHi 9 ||| place 0b111#3 6 ||| place xLo 0
  | .reserved x => place 0b1101#4 12 ||| place x 0
  | .lea dr off => place 0b1110#4 12 ||| place dr 9 ||| place off 0
  | .trapGetc x => place 0b1111#4 12 ||| place x 8 ||| place 0x20#8 0
  | .trapOut x => place 0b1111#4 12 ||| place x 8 ||| place 0x21#8 0
  | .trapPuts x => place 0b1111#4 12 ||| place x 8 ||| place 0x22#8 0
  | .trapIn x => place 0b1111#4 12 ||| place x 8 ||| place 0x23#8 0
  | .trapPutsp x => place 0b1111#4 12 ||| place x 8 ||| place 0x24#8 0
  | .trapHalt x => place 0b1111#4 12 ||| place x 8 ||| place 0x25#8 0
  | .trapUnknown x v => place 0b1111#4 12 ||| place x 8 ||| place v 0

/-- The instruction the decoder reads from the bits `w` of a row `nbits` wide. Every instruction is exactly one 16-bit
word (R80), so a longer row or a value that does not fit one word is no instruction of this block. -/
def decodeTableWord (nbits w : Nat) : Option Instr :=
  if nbits ≤ 16 ∧ w < 2 ^ 16 then some (decode (BitVec.ofNat 16 w)) else none

end Sys2Proof
end

