-- ==== Sys2Proof/Config.lean ====
section
/-! DEFINITION. What is fixed for one block: the implementation parameters of spec/00_scope.md R5 that State's reset
value needs, and the type of the launch parameter P_INPUT_EXT (R6). The spec leaves no instruction's result undefined,
so there is no free value here. -/

namespace Sys2Proof.Config

/-- `P_INPUT_EXT`: how an input byte becomes a 16-bit word (R6, R53; 92_eei_decisions.md D9). -/
inductive InputExt where
  | zero
  | sign
  deriving DecidableEq, Repr

/-- The number of memory cells: addresses 0x0000 to 0xFFFF (R5). -/
def memorySize : Nat := 65536

/-- The reset PC (R5, R271): "Programs begin at 0x3000". -/
def resetPc : Word := 0x3000

/-- The three legal values of COND (R25). -/
def pos : Word := 0x0001
def zro : Word := 0x0002
def neg : Word := 0x0004

end Sys2Proof.Config
end

