-- ==== Sys2Proof/Machine/State.lean ====
section
/-! DEFINITION. The state of the block (spec/10_state.md R20), the launch parameters and port answers the step reads
(R6, R34), the reset value (R33, R270), and the reasons for which no next state exists. -/

namespace Sys2Proof.Machine

/-- One listed cell of memory: its address and its word. The block is word-addressed and "no instruction addresses a
byte" (R59), so a cell holds a 16-bit word. DESIGN CHOICE, safe (log entry 1). -/
abbrev Cell := Nat × Word

/-- MEM (R31): the cells that are not 0x0000, by rising address. A cell that is not listed reads as 0x0000, the value
every cell has at startup (R33). -/
abbrev Memory := List Cell

/-- The canonical form: addresses strictly rising, inside 0x0000-0xFFFF, and no cell listed that reads as an unlisted
one does. -/
abbrev Memory.wf (m : Memory) : Prop :=
  m.Pairwise (fun c d => c.1 < d.1) ∧ ∀ c ∈ m, c.1 < Config.memorySize ∧ c.2 ≠ 0

/-- STATUS (R30). -/
inductive Status where
  | running
  | halted
  | faulted
  deriving DecidableEq, Repr

/-- The fault codes of R242; `FaultCode.number` (Machine/Ops.lean) gives their numbers. -/
inductive FaultCode where
  | none
  | illegalOpcodeRti
  | illegalOpcodeReserved
  | unknownTrap
  | inputFailure
  | outputFailure
  deriving DecidableEq, Repr

/-- The FAULT record (R30, R241); meaningful only when STATUS = Faulted. -/
structure FaultRecord where
  code : FaultCode
  /-- the address of the instruction that faulted -/
  pc : Word
  /-- the instruction word, or 0x0000 when the fault happened during the fetch -/
  ir : Word
  /-- cause-specific -/
  info : Word
  deriving DecidableEq, Repr

/-- The device events of a step (R115). -/
inductive Event where
  | write (b : Byte)
  | flush
  | read (b : Byte)
  | probe (answer : Bool)
  deriving DecidableEq, Repr

/-- What the input device has for the block the next time a step consults it, by a Probe or by a blocking ReadByte
(R36-R38). DESIGN CHOICE (log entry 2). -/
inductive InAnswer where
  /-- nothing yet: a Probe answers false, a blocking ReadByte holds -/
  | wait
  /-- a byte: a Probe answers true and the ReadByte after it, or a blocking ReadByte, delivers it -/
  | byte (b : Byte)
  /-- end of input or an I/O error: a Probe answers true, and ReadByte answers Fail -/
  | fail
  deriving DecidableEq, Repr

/-- The output device's answer to one OutByte or Flush (R39, R40). -/
inductive OutAnswer where
  | ok
  | fail
  deriving DecidableEq, Repr

/-- The block's state. The first six fields are the spec's (R20); the last four are the MODEL's own: the launch
parameter P_INPUT_EXT and the port answers (R6), which every statement quantifies over, and the event trace (R39,
R115). -/
structure State where
  /-- R0 to R7 (R21) -/
  regs : Vector Word 8
  /-- the program counter (R23) -/
  pc : Word
  /-- the condition register (R25) -/
  cond : Word
  /-- STATUS; RUN is the view "STATUS = Running" (R29, R30) -/
  status : Status
  /-- the FAULT record (R30) -/
  fault : FaultRecord
  /-- MEM, the KBSR and KBDR cells among it (R31) -/
  mem : Memory
  /-- P_INPUT_EXT (R6, R53); no step writes it -/
  inputExt : Config.InputExt
  /-- the input device's answers still to come; when none is listed there is never a key (log entry 2) -/
  input : List InAnswer
  /-- the output device's answers still to come; when none is listed the answer is Ok (log entry 3) -/
  outAnswers : List OutAnswer
  /-- the device events so far, oldest first (R39, R40, R115) -/
  trace : List Event
  deriving DecidableEq, Repr

/-- Why a step has no next state. The faults the SPEC raises (R242) are not here: they are taken, as next states with
STATUS = Faulted. -/
inductive Fault where
  /-- Raised by `step` on a Halted block: it "takes no step" (R110, R255). Safe. -/
  | halted
  /-- Raised by `step` on a Faulted block: "nothing clears it but a new reset" (R110, R241). Safe. -/
  | faulted
  /-- Raised by TRAP_PUTS and TRAP_PUTSP when no word of memory is 0x0000: the outcome Diverge, "no successor state"
  (R115, R211). Safe. -/
  | diverge
  deriving DecidableEq, Repr

/-- Why an instruction has no meaning. Every instruction of this block has one, so nothing raises this. -/
inductive Refusal where
  /-- Raised by an arm of `exec` that has no meaning yet; no arm is left so. Safe. -/
  | notModelled (mnemonic : String)
  deriving DecidableEq, Repr

/-- The block at the first fetch when no image is loaded: the table of R33. The FAULT record is "unspecified
(meaningless while Running)" there and is the empty record here, DESIGN CHOICE, unsafe (log entry 6); the answers of
the devices are the empty lists, DESIGN CHOICE, unsafe (log entries 2, 3); P_INPUT_EXT has its default (R6). -/
def State.reset : State where
  regs := #v[0, 0, 0, 0, 0, 0, 0, 0]
  pc := Config.resetPc
  cond := Config.zro
  status := .running
  fault := { code := .none, pc := 0, ir := 0, info := 0 }
  mem := []
  inputExt := .zero
  input := []
  outAnswers := []
  trace := []

end Sys2Proof.Machine
end

