-- ==== Sys2Proof/Machine/Ops.lean ====
section
/-! DEFINITION. The named operations over registers, memory and the device ports (spec/10_state.md, 20_memory.md), the
fetch (R111), TAKING A FAULT (R241) and entering a trap (R200).

There is no return operation beside them: "No return-from-trap instruction is needed or available" (R247), and a fault
"transfers control nowhere" and is latched (R241, R246). -/

namespace Sys2Proof.Machine

/-! ### The state's fields, one named update each -/

/-- `R[r]` (R11, R21). -/
def State.reg (s : State) (r : RegNum) : Word := s.regs[r.toNat]'r.isLt

/-- `R[r] <- v` (R11). -/
def State.setReg (s : State) (r : RegNum) (v : Word) : State := { s with regs := s.regs.set r.toNat v r.isLt }

/-- `PC <- v` (R11). -/
def State.setPc (s : State) (v : Word) : State := { s with pc := v }

/-- COND <- v; used by setcc alone (R26). -/
def State.setCond (s : State) (v : Word) : State := { s with cond := v }

/-- STATUS <- v (R30). -/
def State.setStatus (s : State) (v : Status) : State := { s with status := v }

/-- FAULT <- r (R30). -/
def State.setFault (s : State) (r : FaultRecord) : State := { s with fault := r }

/-- What is left of the input device's answers. -/
def State.setInput (s : State) (l : List InAnswer) : State := { s with input := l }

/-- What is left of the output device's answers. -/
def State.setOutAnswers (s : State) (l : List OutAnswer) : State := { s with outAnswers := l }

/-- Append one event to the trace (R39, R40, R115). -/
def State.log (s : State) (e : Event) : State := { s with trace := s.trace ++ [e] }

/-- RUN, "refined" by STATUS: "RUN is true exactly when STATUS = Running" (R30). -/
def State.run (s : State) : Bool := s.status == .running

/-- The status port: STATUS, "and, when STATUS = Faulted, the FAULT record" (R41). -/
def State.statusPort (s : State) : Status × Option FaultRecord :=
  (s.status, if s.status = .faulted then some s.fault else none)

/-! ### Memory -/

/-- The word of the first cell listed for `a`, or 0x0000 (R33). -/
def Memory.read : Memory → Nat → Word
  | [], _ => 0
  | (k, v) :: m, a => if k = a then v else Memory.read m a

/-- The memory with no cell listed for `a`. -/
def Memory.erase (m : Memory) (a : Nat) : Memory := m.filter (fun c => c.1 != a)

/-- List the cell (a, v) at its place by address. -/
def Memory.insert : Memory → Nat → Word → Memory
  | [], a, v => [(a, v)]
  | (k, w) :: m, a, v => if a < k then (a, v) :: (k, w) :: m else (k, w) :: Memory.insert m a v

/-- The cell `a` becomes `v`; a cell that becomes 0x0000 is listed no more. -/
def Memory.write (m : Memory) (a : Nat) (v : Word) : Memory :=
  if v = 0 then m.erase a else (m.erase a).insert a v

/-- KBSR, the keyboard status register (R5, R58). -/
def kbsr : Word := 0xFE00

/-- KBDR, the keyboard data register (R5, R58). -/
def kbdr : Word := 0xFE02

/-- The word a KBSR read gives when a key was read: "0x8000 (bit 15 set)" (R52). -/
def kbsrReady : Word := 0x8000

/-- `MemPlain(a)`: the raw array cell, no side effect (R50). -/
def State.memPlain (s : State) (a : Word) : Word := s.mem.read a.toNat

/-- `MemWrite(a, v)`: unconditional, for every address (R51). -/
def State.memWrite (s : State) (a v : Word) : State := { s with mem := s.mem.write a.toNat v }

/-- `zext_16(b)` (R10). -/
def zext16 (b : Byte) : Word := b.zeroExtend 16

/-- `sext_8(b)` (R9, R53). -/
def sext8 (b : Byte) : Word := b.signExtend 16

/-- `ext16(b)`: how an input byte becomes a word (R53). -/
def ext16 (p : Config.InputExt) (b : Byte) : Word :=
  match p with
  | .zero => zext16 b
  | .sign => sext8 b

/-- What MemRead gives: the word read and the state after, or the state in which ReadByte answered Fail. -/
inductive Access where
  | value (w : Word) (s : State)
  | inputFailure (s : State)
  deriving DecidableEq, Repr

/-- A MemRead of KBSR (R52): Probe; if it answers true, ReadByte, KBDR <- the byte and KBSR <- 0x8000; else
KBSR <- 0x0000. Probe answers true exactly when the answer to come is a byte or a failure (R37), so the ReadByte after
it cannot hold. A failure changes neither cell (R243). -/
def State.pollKeyboard (s : State) : Access :=
  match s.input with
  | .byte b :: rest =>
    .value kbsrReady
      (((((s.setInput rest).log (.probe true)).log (.read b)).memWrite kbdr (ext16 s.inputExt b)).memWrite kbsr kbsrReady)
  | .fail :: rest => .inputFailure ((s.setInput rest).log (.probe true))
  | .wait :: rest => .value 0 (((s.setInput rest).log (.probe false)).memWrite kbsr 0)
  | [] => .value 0 ((s.log (.probe false)).memWrite kbsr 0)

/-- `MemRead(a)`: the read that intercepts KBSR (R52, R54). -/
def State.memRead (s : State) (a : Word) : Access :=
  if a = kbsr then s.pollKeyboard else .value (s.memPlain a) s

/-! ### The blocking read -/

/-- What ReadByte gives: a byte, Fail, or no answer yet (R38). -/
inductive Reply where
  | byte (b : Byte) (s : State)
  | failed (s : State)
  | hold
  deriving DecidableEq, Repr

/-- The blocking `ReadByte()` of GETC and IN (R38); a byte delivered is an event `Read(b)` (R115). -/
def State.readByte (s : State) : Reply :=
  match s.input with
  | .byte b :: rest => .byte b ((s.setInput rest).log (.read b))
  | .fail :: rest => .failed (s.setInput rest)
  | .wait :: _ => .hold
  | [] => .hold

/-- The outcome Hold, from the state `s` after the fetch of the TRAP word: "unchanged; no event is recorded; the same
step is taken again from the start" (R115). The fetch moved only PC, so PC goes back (R201); the host's "nothing yet"
is used up. DESIGN CHOICE, safe (log entry 4). -/
def State.held (s : State) : State := (s.setPc (s.pc - 1)).setInput s.input.tail

/-! ### Output -/

/-- What a sequence of output operations comes to: all done, one answered Fail, or no end (Diverge). -/
inductive Output where
  | done (s : State)
  | failed (s : State)
  | endless
  deriving DecidableEq, Repr

/-- Go on with `k` where the output so far is done. -/
def Output.andThen (o : Output) (k : State → Output) : Output :=
  match o with
  | .done s => k s
  | .failed s => .failed s
  | .endless => .endless

/-- One output operation: on Ok its event is recorded; on Fail it is not (R39, R40). -/
def State.emit (s : State) (e : Event) : Output :=
  match s.outAnswers with
  | .ok :: rest => .done ((s.setOutAnswers rest).log e)
  | .fail :: rest => .failed (s.setOutAnswers rest)
  | [] => .done (s.log e)

/-- `OutByte(b)` (R39). -/
def State.outByte (s : State) (b : Byte) : Output := s.emit (.write b)

/-- `Flush()` (R40). -/
def State.flush (s : State) : Output := s.emit .flush

/-- OutByte of each byte in turn. -/
def State.outBytes (s : State) : List Byte → Output
  | [] => .done s
  | b :: bs => (s.outByte b).andThen (fun s' => s'.outBytes bs)

/-- The loop of PUTS and PUTSP (R203, R205): at most `n` words from `p` on, each read plainly and written as
`bytesOf` says, up to a whole 0x0000 word. Where `n` words have been written and none was 0x0000 there is no end. -/
def State.outString (bytesOf : Word → List Byte) : Nat → Word → State → Output
  | 0, _, _ => .endless
  | n + 1, p, s =>
    if s.memPlain p = 0 then .done s
    else (s.outBytes (bytesOf (s.memPlain p))).andThen (fun s' => State.outString bytesOf n (p + 1) s')

/-! ### Faults and traps -/

/-- The 4-bit numbers of the fault codes (R242); 6 to 15 are unused. -/
def FaultCode.number : FaultCode → BitVec 4
  | .none => 0
  | .illegalOpcodeRti => 1
  | .illegalOpcodeReserved => 2
  | .unknownTrap => 3
  | .inputFailure => 4
  | .outputFailure => 5

/-- TAKING A FAULT, `raise Fault(code, info)` (R241), in a step that fetched the word `ir`: STATUS <- Faulted and the
FAULT record is filled. FAULT.pc is the address fetched from, which is PC - 1, since no statement before a raise writes
PC after the fetch. Everything written before stays written (R116, R243). -/
def State.raise (s : State) (code : FaultCode) (ir info : Word) : State :=
  (s.setFault { code := code, pc := s.pc - 1, ir := ir, info := info }).setStatus .faulted

/-- Entering a trap: `R[7] <- PC`, the return address and the only thing saved (R200, R246). -/
def State.trapEntry (s : State) : State := s.setReg 7 s.pc

/-- Go on with `k` after a routine's output; a Fail faults with OUTPUT_FAILURE, whose info is the routine's vector
(R242, R258); output without an end is Diverge (R211). -/
def Output.conclude (o : Output) (ir vector : Word) (k : State → Host.Outcome State Fault Refusal) :
    Host.Outcome State Fault Refusal :=
  match o with
  | .done s => k s
  | .failed s => .next (s.raise .outputFailure ir vector)
  | .endless => .fault .diverge

/-! ### The fetch -/

/-- `addr <- PC; PC <- PC + 1; instr <- MemRead(addr)` (R111). -/
def State.fetch (s : State) : Access := (s.setPc (s.pc + 1)).memRead s.pc

/-- A fetch from 0xFE00 whose ReadByte answered Fail: FAULT.ir is 0x0000 and nothing is dispatched (R111, R241). -/
def State.fetchFailed (s : State) : State := s.raise .inputFailure 0 kbsr

end Sys2Proof.Machine
end

