-- ==== Sys2Proof/Machine/Operands.lean ====
section
/-! DEFINITION. The operand forms: sign extension (spec/00_scope.md R9), the bytes of a word (R10) and the
address-generation adder (spec/40_fetch_dispatch.md R117). -/

namespace Sys2Proof.Machine

/-- `sext_N(x)` for a field of N bits (R9). -/
def sext {n : Nat} (x : BitVec n) : Word := x.signExtend 16

/-- `low8(v)` (R10). -/
def low8 (v : Word) : Byte := v.extractLsb' 0 8

/-- `high8(v)` (R10). -/
def high8 (v : Word) : Byte := v.extractLsb' 8 8

/-- PC-relative 9: `PC + sext_9(instr[8:0])`, PC being the incremented PC (R112, R117). -/
def State.pcRel9 (s : State) (off : BitVec 9) : Word := s.pc + sext off

/-- PC-relative 11: `PC + sext_11(instr[10:0])` (R117). -/
def State.pcRel11 (s : State) (off : BitVec 11) : Word := s.pc + sext off

/-- base + offset 6: `R[instr[8:6]] + sext_6(instr[5:0])` (R117). -/
def State.baseOff6 (s : State) (base : RegNum) (off : BitVec 6) : Word := s.reg base + sext off

end Sys2Proof.Machine
end

