-- ==== Sys2Proof/Machine/Flags.lean ====
section
/-! DEFINITION. The flag logic (spec/10_state.md R25-R28). -/

namespace Sys2Proof.Machine

/-- The value setcc gives COND for the word `v` (R27). -/
def condOf (v : Word) : Word :=
  if v = 0 then Config.zro
  else if v.getLsbD 15 then Config.neg
  else Config.pos

/-- `setcc(v)` (R27). -/
def State.setcc (s : State) (v : Word) : State := s.setCond (condOf v)

/-- `R[dr] <- v; setcc(R[dr])`: "setcc reads the register's new value, after the write" (R27, R28). -/
def State.writeResult (s : State) (dr : RegNum) (v : Word) : State :=
  (s.setReg dr v).setcc ((s.setReg dr v).reg dr)

/-- Whether a BR with the mask `mask` is taken: `(instr[11:9] & COND) != 0` (R86, R180). -/
def State.branchTaken (s : State) (mask : BitVec 3) : Bool :=
  mask.zeroExtend 16 &&& s.cond != 0

end Sys2Proof.Machine
end

