-- ==== Sys2Proof/Machine/Control.lean ====
section
/-! DEFINITION. Branches, jumps and subroutine calls (spec/43_control.md). -/

namespace Sys2Proof.Machine

/-- BR, R180, R181. -/
def execBr (mask : BitVec 3) (off : BitVec 9) (s : State) : Host.Outcome State Fault Refusal :=
  if s.branchTaken mask then .next (s.setPc (s.pcRel9 off)) else .next s

/-- JSR, R182: `R[7] <- PC; PC <- PC + sext_11(instr[10:0])`. -/
def execJsr (off : BitVec 11) (s : State) : Host.Outcome State Fault Refusal :=
  let s1 := s.setReg 7 s.pc
  .next (s1.setPc (s1.pcRel11 off))

/-- JSRR, R183, R184: BaseR is read AFTER R7 is written. -/
def execJsrr (base : RegNum) (_xHi : BitVec 2) (_xLo : BitVec 6) (s : State) : Host.Outcome State Fault Refusal :=
  let s1 := s.setReg 7 s.pc
  .next (s1.setPc (s1.reg base))

/-- JMP, R185. -/
def execJmp (base : RegNum) (_xHi : BitVec 3) (_xLo : BitVec 6) (s : State) : Host.Outcome State Fault Refusal :=
  .next (s.setPc (s.reg base))

/-- RET, R186. -/
def execRet (_xHi : BitVec 3) (_xLo : BitVec 6) (s : State) : Host.Outcome State Fault Refusal :=
  .next (s.setPc (s.reg 7))

end Sys2Proof.Machine
end

