-- ==== Sys2Proof/Machine/DataMovement.lean ====
section
/-! DEFINITION. Loads, stores and LEA (spec/42_data_movement.md). -/

namespace Sys2Proof.Machine

/-- Go on with `k` after a MemRead of the instruction whose word is `ir`; a KBSR read whose ReadByte answered Fail
faults with INPUT_FAILURE, info 0xFE00, and nothing more is written (R52, R243, R257). -/
def Access.andThen (r : Access) (ir : Word) (k : Word → State → Host.Outcome State Fault Refusal) :
    Host.Outcome State Fault Refusal :=
  match r with
  | .value w s => k w s
  | .inputFailure s => .next (s.raise .inputFailure ir kbsr)

/-- `R[dr] <- MemRead(a); setcc(R[dr])`, the data read of LD, LDR and LDI. -/
def State.loadFrom (s : State) (dr : RegNum) (a ir : Word) : Host.Outcome State Fault Refusal :=
  (s.memRead a).andThen ir (fun w s' => .next (s'.writeResult dr w))

/-- LD, R150. -/
def execLd (dr : RegNum) (off : BitVec 9) (s : State) : Host.Outcome State Fault Refusal :=
  s.loadFrom dr (s.pcRel9 off) (encode (.ld dr off))

/-- LDI, R151: both reads are MemRead. -/
def execLdi (dr : RegNum) (off : BitVec 9) (s : State) : Host.Outcome State Fault Refusal :=
  (s.memRead (s.pcRel9 off)).andThen (encode (.ldi dr off)) (fun p s' => s'.loadFrom dr p (encode (.ldi dr off)))

/-- LDR, R152. -/
def execLdr (dr base : RegNum) (off : BitVec 6) (s : State) : Host.Outcome State Fault Refusal :=
  s.loadFrom dr (s.baseOff6 base off) (encode (.ldr dr base off))

/-- LEA, R153: no memory access; it sets COND (90_conflicts.md C11). -/
def execLea (dr : RegNum) (off : BitVec 9) (s : State) : Host.Outcome State Fault Refusal :=
  .next (s.writeResult dr (s.pcRel9 off))

/-- ST, R154. -/
def execSt (sr : RegNum) (off : BitVec 9) (s : State) : Host.Outcome State Fault Refusal :=
  .next (s.memWrite (s.pcRel9 off) (s.reg sr))

/-- STI, R155: the pointer read is MemRead. -/
def execSti (sr : RegNum) (off : BitVec 9) (s : State) : Host.Outcome State Fault Refusal :=
  (s.memRead (s.pcRel9 off)).andThen (encode (.sti sr off)) (fun p s' => .next (s'.memWrite p (s'.reg sr)))

/-- STR, R156. -/
def execStr (sr base : RegNum) (off : BitVec 6) (s : State) : Host.Outcome State Fault Refusal :=
  .next (s.memWrite (s.baseOff6 base off) (s.reg sr))

end Sys2Proof.Machine
end

