-- ==== Sys2Proof/Machine/Operate.lean ====
section
/-! DEFINITION. The operate instructions and the ALU (spec/41_operate.md). -/

namespace Sys2Proof.Machine

/-- The ALU's three functions (R130); addition is modulo 2^16 and leaves no carry or overflow (R136). -/
def aluAdd (a b : Word) : Word := a + b
def aluAnd (a b : Word) : Word := a &&& b
def aluNot (a : Word) : Word := ~~~a

/-- ADD (register), R131; bits 4..3 are ignored. -/
def execAdd (dr sr1 sr2 : RegNum) (_x : BitVec 2) (s : State) : Host.Outcome State Fault Refusal :=
  .next (s.writeResult dr (aluAdd (s.reg sr1) (s.reg sr2)))

/-- ADD (immediate), R132. -/
def execAddImm (dr sr1 : RegNum) (imm5 : BitVec 5) (s : State) : Host.Outcome State Fault Refusal :=
  .next (s.writeResult dr (aluAdd (s.reg sr1) (sext imm5)))

/-- AND (register), R133; bits 4..3 are ignored. -/
def execAnd (dr sr1 sr2 : RegNum) (_x : BitVec 2) (s : State) : Host.Outcome State Fault Refusal :=
  .next (s.writeResult dr (aluAnd (s.reg sr1) (s.reg sr2)))

/-- AND (immediate), R134. -/
def execAndImm (dr sr1 : RegNum) (imm5 : BitVec 5) (s : State) : Host.Outcome State Fault Refusal :=
  .next (s.writeResult dr (aluAnd (s.reg sr1) (sext imm5)))

/-- NOT, R135; bits 5..0 are ignored. -/
def execNot (dr sr1 : RegNum) (_x : BitVec 6) (s : State) : Host.Outcome State Fault Refusal :=
  .next (s.writeResult dr (aluNot (s.reg sr1)))

end Sys2Proof.Machine
end

