-- ==== Sys2Proof/Machine/Trap.lean ====
section
/-! DEFINITION. TRAP and the six service routines (spec/44_trap.md). Each meaning is the whole TRAP: the write of R7
(R200), then the routine. Character codes are ASCII and "\n" is 0x0A (92_eei_decisions.md D20). -/

namespace Sys2Proof.Machine

/-- "Enter a character: ", 19 bytes, no newline (R204). -/
def inPrompt : List Byte :=
  [0x45, 0x6E, 0x74, 0x65, 0x72, 0x20, 0x61, 0x20, 0x63, 0x68, 0x61, 0x72, 0x61, 0x63, 0x74, 0x65, 0x72, 0x3A, 0x20]

/-- "HALT\n" (R206). -/
def haltLine : List Byte := [0x48, 0x41, 0x4C, 0x54, 0x0A]

/-- PUTS writes the low byte of each word (R203). -/
def putsBytes (w : Word) : List Byte := [low8 w]

/-- PUTSP writes the low byte, "even when it is 0x00", then the high byte if it is not 0x00 (R205). -/
def putspBytes (w : Word) : List Byte := if high8 w = 0 then [low8 w] else [low8 w, high8 w]

/-- TRAP x20, GETC, R201: blocking, no echo, no flush. -/
def execTrapGetc (x : BitVec 4) (s : State) : Host.Outcome State Fault Refusal :=
  match s.trapEntry.readByte with
  | .byte b s' => .next (s'.writeResult 0 (ext16 s'.inputExt b))
  | .failed s' => .next (s'.raise .inputFailure (encode (.trapGetc x)) 0x0020)
  | .hold => .next s.held

/-- TRAP x21, OUT, R202. -/
def execTrapOut (x : BitVec 4) (s : State) : Host.Outcome State Fault Refusal :=
  ((s.trapEntry.outByte (low8 (s.trapEntry.reg 0))).andThen State.flush).conclude (encode (.trapOut x)) 0x0021 .next

/-- TRAP x22, PUTS, R203, R211. -/
def execTrapPuts (x : BitVec 4) (s : State) : Host.Outcome State Fault Refusal :=
  ((State.outString putsBytes Config.memorySize (s.trapEntry.reg 0) s.trapEntry).andThen State.flush).conclude
    (encode (.trapPuts x)) 0x0022 .next

/-- TRAP x23, IN, R204: the prompt, the blocking read, the echo, the flush, then R0 and COND. -/
def execTrapIn (x : BitVec 4) (s : State) : Host.Outcome State Fault Refusal :=
  (s.trapEntry.outBytes inPrompt).conclude (encode (.trapIn x)) 0x0023 fun s1 =>
    match s1.readByte with
    | .byte b s2 =>
      ((s2.outByte b).andThen State.flush).conclude (encode (.trapIn x)) 0x0023 fun s3 =>
        .next (s3.writeResult 0 (ext16 s3.inputExt b))
    | .failed s2 => .next (s2.raise .inputFailure (encode (.trapIn x)) 0x0023)
    | .hold => .next s.held

/-- TRAP x24, PUTSP, R205, R211. -/
def execTrapPutsp (x : BitVec 4) (s : State) : Host.Outcome State Fault Refusal :=
  ((State.outString putspBytes Config.memorySize (s.trapEntry.reg 0) s.trapEntry).andThen State.flush).conclude
    (encode (.trapPutsp x)) 0x0024 .next

/-- TRAP x25, HALT, R206. -/
def execTrapHalt (x : BitVec 4) (s : State) : Host.Outcome State Fault Refusal :=
  ((s.trapEntry.outBytes haltLine).andThen State.flush).conclude (encode (.trapHalt x)) 0x0025 fun s' =>
    .next (s'.setStatus .halted)

/-- TRAP with any other vector, R207: the fault comes after the write of R7; its info is the vector. -/
def execTrapUnknown (x : BitVec 4) (v : BitVec 8) (s : State) : Host.Outcome State Fault Refusal :=
  .next (s.trapEntry.raise .unknownTrap (encode (.trapUnknown x v)) (zext16 v))

end Sys2Proof.Machine
end

