-- ==== Sys2Proof/Machine/Unused.lean ====
section
/-! DEFINITION. The two unused opcodes (spec/45_unused.md): both fault, whatever bits 11..0 hold. -/

namespace Sys2Proof.Machine

/-- RTI, opcode 1000, R230. -/
def execRti (x : BitVec 12) (s : State) : Host.Outcome State Fault Refusal :=
  .next (s.raise .illegalOpcodeRti (encode (.rti x)) 0x0008)

/-- The reserved opcode 1101, R231. -/
def execReserved (x : BitVec 12) (s : State) : Host.Outcome State Fault Refusal :=
  .next (s.raise .illegalOpcodeReserved (encode (.reserved x)) 0x000D)

end Sys2Proof.Machine
end

