-- ==== Sys2Proof/Machine/Dispatch.lean ====
section
/-! DEFINITION. One arm per row of spec/opcode_table.json (spec/30_encoding.md R88, spec/40_fetch_dispatch.md R113). -/

namespace Sys2Proof.Machine

def exec (i : Instr) (s : State) : Host.Outcome State Fault Refusal :=
  match i with
  | .br cond off => Sys2Proof.Machine.execBr cond off s
  | .add dr sr1 sr2 x => Sys2Proof.Machine.execAdd dr sr1 sr2 x s
  | .addImm dr sr1 imm => Sys2Proof.Machine.execAddImm dr sr1 imm s
  | .ld dr off => Sys2Proof.Machine.execLd dr off s
  | .st sr off => Sys2Proof.Machine.execSt sr off s
  | .jsr off => Sys2Proof.Machine.execJsr off s
  | .jsrr base xHi xLo => Sys2Proof.Machine.execJsrr base xHi xLo s
  | .and dr sr1 sr2 x => Sys2Proof.Machine.execAnd dr sr1 sr2 x s
  | .andImm dr sr1 imm => Sys2Proof.Machine.execAndImm dr sr1 imm s
  | .ldr dr base off => Sys2Proof.Machine.execLdr dr base off s
  | .str sr base off => Sys2Proof.Machine.execStr sr base off s
  | .rti x => Sys2Proof.Machine.execRti x s
  | .not dr sr1 x => Sys2Proof.Machine.execNot dr sr1 x s
  | .ldi dr off => Sys2Proof.Machine.execLdi dr off s
  | .sti sr off => Sys2Proof.Machine.execSti sr off s
  | .jmp base xHi xLo => Sys2Proof.Machine.execJmp base xHi xLo s
  | .ret xHi xLo => Sys2Proof.Machine.execRet xHi xLo s
  | .reserved x => Sys2Proof.Machine.execReserved x s
  | .lea dr off => Sys2Proof.Machine.execLea dr off s
  | .trapGetc x => Sys2Proof.Machine.execTrapGetc x s
  | .trapOut x => Sys2Proof.Machine.execTrapOut x s
  | .trapPuts x => Sys2Proof.Machine.execTrapPuts x s
  | .trapIn x => Sys2Proof.Machine.execTrapIn x s
  | .trapPutsp x => Sys2Proof.Machine.execTrapPutsp x s
  | .trapHalt x => Sys2Proof.Machine.execTrapHalt x s
  | .trapUnknown x v => Sys2Proof.Machine.execTrapUnknown x v s

end Sys2Proof.Machine
end

