-- ==== Sys2Proof/Machine/Step.lean ====
section
/-! DEFINITION. The step (spec/40_fetch_dispatch.md R110, R111) and the placing of one instruction where it is fetched. -/

namespace Sys2Proof.Machine

/-- One step: only while STATUS = Running (R110); the fetch, then the decoded instruction (R111, R113). -/
def step (s : State) : Host.Outcome State Fault Refusal :=
  match s.status with
  | .halted => .fault .halted
  | .faulted => .fault .faulted
  | .running =>
    match s.fetch with
    | .value w s' => exec (decode w) s'
    | .inputFailure s' => .next s'.fetchFailed

/-- `s` with the instruction word `w` stored at PC, where `step` fetches next. It stands for the loader (log entry 8).
A fetch from 0xFE00 reads the keyboard and never memory (R52), so at that PC no word can be placed. -/
def State.withFetchWord (s : State) (_nbits w : Nat) : State := s.memWrite s.pc (BitVec.ofNat 16 w)

end Sys2Proof.Machine
end

