-- ==== Sys2Proof/Machine/Loader.lean ====
section
/-! DEFINITION. The loader's effect on memory and the launch of the block (spec/70_reset_and_hazards.md R270,
R275-R280). It runs before the first step and takes no part after it (R35). -/

namespace Sys2Proof.Machine

/-- An image: its bytes, or `none` where it "cannot be opened" (R276). -/
abbrev Image := Option (List Byte)

/-- Word of two bytes, the first the more significant: "16-bit big-endian words" (R275). -/
def wordOfBytes (hi lo : Byte) : Word := hi ++ lo

/-- Copy payload words to `a`, `a + 1`, …, at most `n` of them (R276). Bytes beyond the bound are ignored; an odd byte
within it is a failure, "truncated mid-word". -/
def loadPayload : Nat → Nat → List Byte → Memory → Option Memory
  | 0, _, _, m => some m
  | _ + 1, _, [], m => some m
  | _ + 1, _, [_], _ => none
  | n + 1, a, hi :: lo :: rest, m => loadPayload n (a + 1) rest (m.write a (wordOfBytes hi lo))

/-- Load one image (R276): its first word is the origin, and `65536 - origin` bounds the payload. -/
def loadImage (img : Image) (m : Memory) : Option Memory :=
  match img with
  | some (hi :: lo :: payload) =>
    loadPayload (Config.memorySize - (wordOfBytes hi lo).toNat) (wordOfBytes hi lo).toNat payload m
  | _ => none

/-- Load the images in order; "later images overwrite earlier ones" (R277, R278). One failure fails the launch (R279). -/
def loadImages : List Image → Memory → Option Memory
  | [], m => some m
  | img :: rest, m => (loadImage img m).bind (loadImages rest)

/-- The reset sequence (R270): the block at its first fetch, launched with these images, these answers of the host's
devices and this P_INPUT_EXT (R6); `none` where an image fails, for then "the core never starts" (R279). -/
def State.launch (images : List Image) (input : List InAnswer) (outAnswers : List OutAnswer)
    (inputExt : Config.InputExt) : Option State :=
  (loadImages images []).map fun mem0 =>
    { State.reset with mem := mem0, input := input, outAnswers := outAnswers, inputExt := inputExt }

end Sys2Proof.Machine
end

