-- ==== Sys2Proof/Safety.lean ====
section
/-! DEFINITION. The terms claims are stated in: the invariant, the frames, the end of a run, and the sets of
instructions that the spec's whole-machine rules name. Nothing here is used by the machine. -/

namespace Sys2Proof.Machine

/-! ### The invariant -/

/-- "COND is exactly one of POS, ZRO, NEG" (R26). -/
def condLegal (c : Word) : Prop := c = Config.pos ∨ c = Config.zro ∨ c = Config.neg

/-- A Faulted block has a fault code other than 0, "no fault; STATUS ≠ Faulted" (R242). -/
def State.faultCoded (s : State) : Prop := s.status = .faulted → s.fault.code ≠ .none

/-- What every step keeps: canonical memory, legal COND, a coded fault. -/
structure State.Inv (s : State) : Prop where
  memory : s.mem.wf
  cond : condLegal s.cond
  fault : s.faultCoded

/-! ### Frames -/

/-- Every general register but those `except` names holds what it held. -/
def sameRegsBut (except : RegNum → Prop) (s t : State) : Prop := ∀ r, ¬ except r → t.reg r = s.reg r

/-- Every general register holds what it held. -/
def sameRegs (s t : State) : Prop := ∀ r, t.reg r = s.reg r

/-- Every cell of memory but those `except` names reads (MemPlain) as before. -/
def sameMemoryBut (except : Word → Prop) (s t : State) : Prop := ∀ a, ¬ except a → t.memPlain a = s.memPlain a

/-- Every cell of memory reads (MemPlain) as before. -/
def sameMemory (s t : State) : Prop := ∀ a, t.memPlain a = s.memPlain a

/-- STATUS and the FAULT record are as before. -/
def sameStatus (s t : State) : Prop := t.status = s.status ∧ t.fault = s.fault

/-- No input was consumed. -/
def sameInput (s t : State) : Prop := t.input = s.input

/-- No output was attempted and no event recorded. -/
def sameOutput (s t : State) : Prop := t.outAnswers = s.outAnswers ∧ t.trace = s.trace

/-- No device was consulted, and the launch parameter is as before. -/
def sameDevices (s t : State) : Prop := sameInput s t ∧ sameOutput s t ∧ t.inputExt = s.inputExt

/-- The FAULT record and STATUS of a fault raised from the state `s` after the fetch (R241). -/
def faultedWith (s t : State) (code : FaultCode) (ir info : Word) : Prop :=
  t.status = .faulted ∧ t.fault = { code := code, pc := s.pc - 1, ir := ir, info := info }

/-- The state after a step that wrote `v` to `R[dr]`, set COND from it and did nothing else. -/
def resultWritten (s t : State) (dr : RegNum) (v : Word) : Prop :=
  t.reg dr = v ∧ t.cond = condOf v ∧ sameRegsBut (· = dr) s t ∧ t.pc = s.pc ∧ sameStatus s t ∧ sameMemory s t ∧
  sameDevices s t

/-- The state after a step that wrote `v` to MEM[a] and did nothing else. -/
def storeWritten (s t : State) (a v : Word) : Prop :=
  t.memPlain a = v ∧ sameMemoryBut (· = a) s t ∧ sameRegs s t ∧ t.pc = s.pc ∧ t.cond = s.cond ∧ sameStatus s t ∧
  sameDevices s t

/-- The state after a step that wrote PC, and R7 as the link if `link` says so, and did nothing else. -/
def jumped (s t : State) (link : Bool) (target : Word) : Prop :=
  t.pc = target ∧ (link → t.reg 7 = s.pc) ∧ sameRegsBut (fun r => link ∧ r = 7) s t ∧ t.cond = s.cond ∧
  sameStatus s t ∧ sameMemory s t ∧ sameDevices s t

/-- The state a faulting step leaves (R241, R243), the registers `wrote` names apart: STATUS and the FAULT record, and
PC, COND and memory as the step had them. -/
def stoppedBy (s t : State) (wrote : RegNum → Prop) (code : FaultCode) (ir info : Word) : Prop :=
  faultedWith s t code ir info ∧ sameRegsBut wrote s t ∧ t.pc = s.pc ∧ t.cond = s.cond ∧ sameMemory s t ∧
  t.inputExt = s.inputExt

/-! ### The devices' answers to come -/

/-- The next consultation of the input device finds nothing: a Probe answers false, a blocking ReadByte holds. -/
def State.noKey (s : State) : Prop := s.input = [] ∨ ∃ rest, s.input = .wait :: rest

/-- None of the next `n` answers of the output device is Fail. -/
def State.outputOk (s : State) (n : Nat) : Prop := ∀ a ∈ s.outAnswers.take n, a = .ok

/-- The first Fail of the output device is its answer number `k`, counted from 0. -/
def State.outputFailsAt (s : State) (k : Nat) : Prop := s.outputOk k ∧ s.outAnswers[k]? = some .fail

/-- The bytes a trace records as delivered, in order. -/
def readsOf (es : List Event) : List Byte :=
  es.filterMap fun
    | .read b => some b
    | .write _ | .flush | .probe _ => none

/-- The bytes an input device still has to deliver, in order. -/
def bytesOf (l : List InAnswer) : List Byte :=
  l.filterMap fun
    | .byte b => some b
    | .wait | .fail => none

/-- Whether an event is output: a Write or a Flush. -/
def Event.isOutput : Event → Bool
  | .write _ | .flush => true
  | .read _ | .probe _ => false

/-- The same outcome with FAULT.ir blanked. -/
def forgetIr (o : Host.Outcome State Fault Refusal) : Host.Outcome State Fault Refusal :=
  match o with
  | .next s => .next { s with fault := { s.fault with ir := 0 } }
  | .fault f => .fault f
  | .refused r => .refused r

/-! ### The end of a run (R119) -/

/-- "the final state (R0–R7, PC, COND, MEM) and the full device-event trace" (R119). -/
structure Observation where
  regs : Vector Word 8
  pc : Word
  cond : Word
  mem : Memory
  trace : List Event
  deriving DecidableEq, Repr

/-- The end of a run is a state with STATUS = Halted, and then its observation; a Faulted state is "never a good end"
(R119, R41). -/
def State.endOfRun (s : State) : Option Observation :=
  if s.status = .halted then some { regs := s.regs, pc := s.pc, cond := s.cond, mem := s.mem, trace := s.trace } else none

end Sys2Proof.Machine

namespace Sys2Proof

/-! ### The sets of instructions the whole-machine rules name -/

/-- The general registers an instruction may write (R22, R210). -/
def Instr.mayWriteReg (i : Instr) (r : RegNum) : Prop :=
  match i with
  | .add dr _ _ _ | .addImm dr _ _ | .and dr _ _ _ | .andImm dr _ _ | .not dr _ _ => r = dr
  | .ld dr _ | .ldi dr _ | .ldr dr _ _ | .lea dr _ => r = dr
  | .jsr _ | .jsrr _ _ _ => r = 7
  | .trapGetc _ | .trapIn _ => r = 0 ∨ r = 7
  | .trapOut _ | .trapPuts _ | .trapPutsp _ | .trapHalt _ | .trapUnknown _ _ => r = 7
  | .br _ _ | .st _ _ | .sti _ _ | .str _ _ _ | .jmp _ _ _ | .ret _ _ | .rti _ | .reserved _ => False

/-- The register setcc is applied to: DR of "ADD, AND, NOT, LD, LDI, LDR and LEA, and (by setcc on R0) … the GETC and
IN trap routines" (R28); no other instruction sets COND. -/
def Instr.flagDest : Instr → Option RegNum
  | .add dr _ _ _ | .addImm dr _ _ | .and dr _ _ _ | .andImm dr _ _ | .not dr _ _ => some dr
  | .ld dr _ | .ldi dr _ | .ldr dr _ _ | .lea dr _ => some dr
  | .trapGetc _ | .trapIn _ => some 0
  | .br .. | .st .. | .sti .. | .str .. | .jsr .. | .jsrr .. | .jmp .. | .ret .. => none
  | .trapOut .. | .trapPuts .. | .trapPutsp .. | .trapHalt .. | .trapUnknown .. | .rti .. | .reserved .. => none

/-- The instructions that write PC beyond the fetch increment (R24). -/
def Instr.mayWritePc : Instr → Bool
  | .br .. | .jsr .. | .jsrr .. | .jmp .. | .ret .. => true
  | .add .. | .addImm .. | .and .. | .andImm .. | .not .. | .ld .. | .ldi .. | .ldr .. | .lea .. => false
  | .st .. | .sti .. | .str .. | .rti .. | .reserved .. => false
  | .trapGetc .. | .trapOut .. | .trapPuts .. | .trapIn .. | .trapPutsp .. | .trapHalt .. | .trapUnknown .. => false

/-- The instructions that read memory through MemRead, and so may poll the keyboard (R55). -/
def Instr.mayPoll : Instr → Bool
  | .ld .. | .ldi .. | .ldr .. | .sti .. => true
  | .add .. | .addImm .. | .and .. | .andImm .. | .not .. | .lea .. | .st .. | .str .. => false
  | .br .. | .jsr .. | .jsrr .. | .jmp .. | .ret .. | .rti .. | .reserved .. => false
  | .trapGetc .. | .trapOut .. | .trapPuts .. | .trapIn .. | .trapPutsp .. | .trapHalt .. | .trapUnknown .. => false

/-- The stores (R55). -/
def Instr.isStore : Instr → Bool
  | .st .. | .sti .. | .str .. => true
  | .add .. | .addImm .. | .and .. | .andImm .. | .not .. | .ld .. | .ldi .. | .ldr .. | .lea .. => false
  | .br .. | .jsr .. | .jsrr .. | .jmp .. | .ret .. | .rti .. | .reserved .. => false
  | .trapGetc .. | .trapOut .. | .trapPuts .. | .trapIn .. | .trapPutsp .. | .trapHalt .. | .trapUnknown .. => false

/-- The instructions that write output (R208, R258). -/
def Instr.mayOutput : Instr → Bool
  | .trapOut .. | .trapPuts .. | .trapIn .. | .trapPutsp .. | .trapHalt .. => true
  | .trapGetc .. | .trapUnknown .. => false
  | .add .. | .addImm .. | .and .. | .andImm .. | .not .. | .ld .. | .ldi .. | .ldr .. | .lea .. => false
  | .st .. | .sti .. | .str .. | .br .. | .jsr .. | .jsrr .. | .jmp .. | .ret .. | .rti .. | .reserved .. => false

/-- The seven TRAP rows (R200). -/
def Instr.isTrap : Instr → Bool
  | .trapGetc .. | .trapOut .. | .trapPuts .. | .trapIn .. | .trapPutsp .. | .trapHalt .. | .trapUnknown .. => true
  | .add .. | .addImm .. | .and .. | .andImm .. | .not .. | .ld .. | .ldi .. | .ldr .. | .lea .. => false
  | .st .. | .sti .. | .str .. | .br .. | .jsr .. | .jsrr .. | .jmp .. | .ret .. | .rti .. | .reserved .. => false

/-- BR, the only reader of COND (R28). -/
def Instr.isBr : Instr → Bool
  | .br .. => true
  | .add .. | .addImm .. | .and .. | .andImm .. | .not .. | .ld .. | .ldi .. | .ldr .. | .lea .. => false
  | .st .. | .sti .. | .str .. | .jsr .. | .jsrr .. | .jmp .. | .ret .. | .rti .. | .reserved .. => false
  | .trapGetc .. | .trapOut .. | .trapPuts .. | .trapIn .. | .trapPutsp .. | .trapHalt .. | .trapUnknown .. => false

/-- The bits of its word an instruction ignores (R87). -/
def Instr.ignoredBits : Instr → Word
  | .add .. | .and .. => 0x0018
  | .not .. => 0x003F
  | .jsrr .. => 0x063F
  | .jmp .. | .ret .. => 0x0E3F
  | .trapGetc .. | .trapOut .. | .trapPuts .. | .trapIn .. | .trapPutsp .. | .trapHalt .. | .trapUnknown .. => 0x0F00
  | .rti .. | .reserved .. => 0x0FFF
  | .br .. | .addImm .. | .andImm .. | .ld .. | .ldi .. | .ldr .. | .lea .. | .st .. | .sti .. | .str .. | .jsr .. => 0

/-! ### The opcode table -/

/-- The mask and the match of an instruction's row in spec/opcode_table.json. -/
def Instr.tableRow : Instr → Word × Word
  | .br _ _ => (0xF000, 0x0000)
  | .add _ _ _ _ => (0xF020, 0x1000)
  | .addImm _ _ _ => (0xF020, 0x1020)
  | .ld _ _ => (0xF000, 0x2000)
  | .st _ _ => (0xF000, 0x3000)
  | .jsr _ => (0xF800, 0x4800)
  | .jsrr _ _ _ => (0xF800, 0x4000)
  | .and _ _ _ _ => (0xF020, 0x5000)
  | .andImm _ _ _ => (0xF020, 0x5020)
  | .ldr _ _ _ => (0xF000, 0x6000)
  | .str _ _ _ => (0xF000, 0x7000)
  | .rti _ => (0xF000, 0x8000)
  | .not _ _ _ => (0xF000, 0x9000)
  | .ldi _ _ => (0xF000, 0xA000)
  | .sti _ _ => (0xF000, 0xB000)
  | .jmp _ _ _ => (0xF000, 0xC000)
  | .ret _ _ => (0xF1C0, 0xC1C0)
  | .reserved _ => (0xF000, 0xD000)
  | .lea _ _ => (0xF000, 0xE000)
  | .trapGetc _ => (0xF0FF, 0xF020)
  | .trapOut _ => (0xF0FF, 0xF021)
  | .trapPuts _ => (0xF0FF, 0xF022)
  | .trapIn _ => (0xF0FF, 0xF023)
  | .trapPutsp _ => (0xF0FF, 0xF024)
  | .trapHalt _ => (0xF0FF, 0xF025)
  | .trapUnknown _ _ => (0xF000, 0xF000)

end Sys2Proof
end

