-- ==== Sys2Proof/Certificates/Slice0/Obligations.lean ====
section
/-! DEFINITION. The statements for the provers, one per entry of OBLIGATIONS.json. An instruction's statement speaks
of the state AFTER the fetch: its PC is the incremented PC (spec/40_fetch_dispatch.md R112), and it speaks of the
instruction's word `w`, with the fields of R81, so that it binds the decoder and the meaning together. -/

namespace Sys2Proof.Claims

open Sys2Proof.Machine

/-- What a poll of KBSR leaves beside memory, registers and COND: PC, STATUS, FAULT, P_INPUT_EXT and the output
device's answers as before, the input left, the events added. -/
def polled (s t : State) (rest : List InAnswer) (es : List Event) : Prop :=
  t.pc = s.pc ∧ sameStatus s t ∧ t.inputExt = s.inputExt ∧ t.outAnswers = s.outAnswers ∧ t.input = rest ∧
  t.trace = s.trace ++ es

/-- What a failed poll of KBSR leaves: the fault INPUT_FAILURE, info 0xFE00, the event Probe(true), and nothing else. -/
def pollFailed (s t : State) (ir : Word) (rest : List InAnswer) : Prop :=
  stoppedBy s t (fun _ => False) .inputFailure ir 0xFE00 ∧ t.input = rest ∧ t.outAnswers = s.outAnswers ∧
  t.trace = s.trace ++ [.probe true]

/-- A load that polls KBSR once: DR and COND get `vNone` where there is no key, `vKey` where there is a byte; KBSR and
KBDR are written as R52 says; a failure takes its fault. -/
def polledLoad (o : Host.Outcome State Fault Refusal) (ir : Word) (s : State) (dr : RegNum) (vNone vKey : Word) : Prop :=
  (s.noKey → ∃ t, o = .next t ∧ t.reg dr = vNone ∧ t.cond = condOf vNone ∧ sameRegsBut (· = dr) s t ∧
    t.memPlain kbsr = 0x0000 ∧ sameMemoryBut (· = kbsr) s t ∧ polled s t s.input.tail [.probe false]) ∧
  (∀ b rest, s.input = .byte b :: rest → ∃ t, o = .next t ∧ t.reg dr = vKey ∧ t.cond = condOf vKey ∧
    sameRegsBut (· = dr) s t ∧ t.memPlain kbsr = 0x8000 ∧ t.memPlain kbdr = ext16 s.inputExt b ∧
    sameMemoryBut (fun a => a = kbsr ∨ a = kbdr) s t ∧ polled s t rest [.probe true, .read b]) ∧
  (∀ rest, s.input = .fail :: rest → ∃ t, o = .next t ∧ pollFailed s t ir rest)

/-- A load of DR from the address `a` (R52, R150). -/
def loads (o : Host.Outcome State Fault Refusal) (ir : Word) (s : State) (dr : RegNum) (a : Word) : Prop :=
  (a ≠ kbsr → ∃ t, o = .next t ∧ resultWritten s t dr (s.memPlain a)) ∧
  (a = kbsr → polledLoad o ir s dr 0x0000 0x8000)

/-- A trap that took the byte `b` and recorded `es`: R7, R0 and COND written, nothing else but the devices. -/
def byteTaken (s t : State) (b : Byte) (rest : List InAnswer) (es : List Event) : Prop :=
  t.reg 7 = s.pc ∧ t.reg 0 = ext16 s.inputExt b ∧ t.cond = condOf (ext16 s.inputExt b) ∧
  sameRegsBut (fun r => r = 0 ∨ r = 7) s t ∧ t.pc = s.pc ∧ sameStatus s t ∧ sameMemory s t ∧
  t.inputExt = s.inputExt ∧ t.input = rest ∧ t.trace = s.trace ++ es

/-- A trap that recorded `es` with `n` answers of the output device: R7 written, nothing else but the output. -/
def written (s t : State) (n : Nat) (es : List Event) : Prop :=
  t.reg 7 = s.pc ∧ sameRegsBut (· = 7) s t ∧ t.pc = s.pc ∧ t.cond = s.cond ∧ sameMemory s t ∧ sameInput s t ∧
  t.inputExt = s.inputExt ∧ t.outAnswers = s.outAnswers.drop n ∧ t.trace = s.trace ++ es

/-- "Enter a character: " in ASCII (R204). -/
def promptEvents : List Event :=
  [.write 0x45, .write 0x6E, .write 0x74, .write 0x65, .write 0x72, .write 0x20, .write 0x61, .write 0x20,
   .write 0x63, .write 0x68, .write 0x61, .write 0x72, .write 0x61, .write 0x63, .write 0x74, .write 0x65,
   .write 0x72, .write 0x3A, .write 0x20]

/-- What PUTSP writes for one word (R205). -/
def packedWrites (w : Word) : List Event :=
  .write (w.extractLsb' 0 8) :: if w.extractLsb' 8 8 = 0 then [] else [.write (w.extractLsb' 8 8)]

/-- What PUTS writes for the `m` words from R0 on (R203). -/
def putsWrites (s : State) (m : Nat) : List Event :=
  (List.range m).map fun j => Event.write ((s.memPlain (s.reg 0 + BitVec.ofNat 16 j)).extractLsb' 0 8)

/-- What PUTSP writes for the `m` words from R0 on (R205). -/
def putspWrites (s : State) (m : Nat) : List Event :=
  (List.range m).flatMap fun j => packedWrites (s.memPlain (s.reg 0 + BitVec.ofNat 16 j))

/-- The trap `i`, whose output operations are `es`, faults at operation number `k` (R243, R258). -/
def outputFails (i : Instr) (s : State) (k : Nat) (vector : Word) (es : List Event) : Prop :=
  ∃ t, exec i s = .next t ∧ stoppedBy s t (· = 7) .outputFailure (encode i) vector ∧ t.reg 7 = s.pc ∧
    sameInput s t ∧ t.outAnswers = s.outAnswers.drop (k + 1) ∧ t.trace = s.trace ++ es.take k

/-- An image's bytes: each word big-endian (R275). -/
def imageBytes : List Word → List Byte
  | [] => []
  | w :: ws => w.extractLsb' 8 8 :: w.extractLsb' 0 8 :: imageBytes ws

end Sys2Proof.Claims

open Sys2Proof
open Sys2Proof.Machine


/-- Decoding the word of any well-formed instruction gives that instruction back. Derived from 30_encoding.md, 1.
Length and fields, 30_encoding.md, 3. Opcode map, opcode_table.json. That the ignored bits are kept as operands is the
model's choice (log entry 9). -/
def Obligations.EncodeThenDecode : Prop :=
  ∀ i : Instr, i.wellFormed = true → decode (encode i) = i

/-- Every word decodes to a well-formed instruction that encodes to the same word. Derived from 30_encoding.md, 3.
Opcode map (decoding is total). For every 16-bit word w, decode w is well formed and encode (decode w) = w: no word is
undecodable and decoding drops no bit (the ignored bits are kept, log entry 9). -/
def Obligations.DecodeThenEncode : Prop :=
  ∀ w : Word, (decode w).wellFormed = true ∧ encode (decode w) = w

/-- The instruction a word decodes to is of a row of the opcode table that the word matches. Derived from
opcode_table.json, 30_encoding.md, 3. Opcode map. -/
def Obligations.DecodedRowMatchesWord : Prop :=
  ∀ w : Word,
    w &&& (decode w).tableRow.1 = (decode w).tableRow.2 ∧
    (w &&& 0xF1C0 = 0xC1C0 → (decode w).tableRow = (0xF1C0, 0xC1C0)) ∧
    (w &&& 0xF000 = 0xF000 → knownTrapVector (field7to0 w) = true →
      (decode w).tableRow = (0xF0FF, 0xF000 ||| (field7to0 w).setWidth 16))

/-- Nine words the spec writes out decode to the instructions it says they are. Derived from 95_test_vectors.md, Part
1. Worked examples from the source (0x12A3, 0x0802, 0xF025), 95_test_vectors.md, Part 3. Programs (0x7441, 0x4802,
0xC1C0, 0x94BF), 41_operate.md, 2. Instructions (ADD register, example 0x1283), 42_data_movement.md, 1. Loads (LDR,
example 0x647F), 30_encoding.md, 1. Length and fields, 30_encoding.md, 2. Immediates and operands (ignored bits),
30_encoding.md, 3. Opcode map, notes/assumptions/9.md, 11.md. That the ignored bits stand among the operands (log
entry 9) and that RET has a constructor of its own (log entry 11) are the model's choices. -/
def Obligations.SpecWordsDecode : Prop :=
  decode 0x12A3 = .addImm 1 2 3 ∧ decode 0x1283 = .add 1 2 3 0 ∧ decode 0x0802 = .br 0b100 2 ∧
  decode 0x647F = .ldr 2 1 0x3F ∧ decode 0x7441 = .str 2 1 1 ∧ decode 0x4802 = .jsr 2 ∧
  decode 0xC1C0 = .ret 0 0 ∧ decode 0xF025 = .trapHalt 0 ∧ decode 0x94BF = .not 2 2 0x3F

/-- Two words that differ only in ignored bits execute the same (FAULT.ir apart). Derived from 30_encoding.md, 1.
Length and fields, 30_encoding.md, 2. Immediates and operands (ignored bits), 92_eei_decisions.md D7. The spec's own
decision D7 (log entry 13). -/
def Obligations.IgnoredBitsChangeNothing : Prop :=
  ∀ (w w' : Word) (s : State),
    w &&& ~~~(decode w).ignoredBits = w' &&& ~~~(decode w).ignoredBits →
    forgetIr (exec (decode w') s) = forgetIr (exec (decode w) s)

/-- setcc writes ZRO for 0, NEG when bit 15 is 1, POS otherwise, and nothing else. Formalises R25, R27: "ZRO if the
value is 0, NEG if bit 15 is 1 (treated as a negative two's-complement number), POS otherwise.". -/
def Obligations.SetccValue : Prop :=
  ∀ (s : State) (v : Word),
    (s.setcc v).cond = (if v = 0 then 0x0002 else if v.getLsbD 15 then 0x0004 else 0x0001) ∧
    (s.setcc v).cond &&& 0xFFF8 = 0 ∧
    s.setcc v = { s with cond := (s.setcc v).cond }

/-- sext_N adds 2^16 - 2^N when the sign bit of the field is 1, for N = 5, 6, 9, 11 and 8. Formalises R9: "if bit
`n-1` of `x` is 1, the bits at positions `n..15` are set to 1; otherwise they are cleared". -/
def Obligations.SignExtension : Prop :=
  (∀ x : BitVec 5, sext x = if x.getLsbD 4 then x.setWidth 16 + 0xFFE0 else x.setWidth 16) ∧
  (∀ x : BitVec 6, sext x = if x.getLsbD 5 then x.setWidth 16 + 0xFFC0 else x.setWidth 16) ∧
  (∀ x : BitVec 9, sext x = if x.getLsbD 8 then x.setWidth 16 + 0xFE00 else x.setWidth 16) ∧
  (∀ x : BitVec 11, sext x = if x.getLsbD 10 then x.setWidth 16 + 0xF800 else x.setWidth 16) ∧
  (∀ x : BitVec 8, sext8 x = if x.getLsbD 7 then x.setWidth 16 + 0xFF00 else x.setWidth 16)

/-- An input byte is zero- or sign-extended as P_INPUT_EXT says; below 0x80 the two agree. Derived from 20_memory.md,
1. Access primitives (ext16), 92_eei_decisions.md D9. P_INPUT_EXT is a launch parameter held in State (log entry 7).
-/
def Obligations.InputByteExtension : Prop :=
  (∀ b : Byte, ext16 .zero b = b.setWidth 16) ∧ (∀ b : Byte, ext16 .sign b = b.signExtend 16) ∧
  (∀ b : Byte, b.getLsbD 7 = false → ext16 .sign b = ext16 .zero b) ∧
  (∀ p : Config.InputExt, ext16 p 0x41 = 0x0041)

/-- MemWrite sets one cell, whatever its address, and nothing else. Formalises R51: "A write to KBSR (0xFE00) or KBDR
(0xFE02) is a plain store". -/
def Obligations.MemWriteRule : Prop :=
  ∀ (s : State) (a v : Word), storeWritten s (s.memWrite a v) a v ∧ (s.memWrite a v).regs = s.regs

/-- MemRead is plain but at 0xFE00, where it probes the keyboard and writes KBSR and perhaps KBDR. Derived from
20_memory.md, 1. Access primitives (MemRead), 92_eei_decisions.md D9, D10, D13, D15, D23, D30, 60_exceptions.md, 1.
Error model, 60_exceptions.md, 6. Failures at the boundary, notes/assumptions/2.md, 9.md, 10.md. The KBSR clauses rest
on the spec's decisions D9, D10, D13, D15, D23 and D30 (log entry 13) and on the model's choices: the input device as
a list (log entry 2), FAULT.ir and FAULT.pc (log entry 9) and which events are recorded (log entry 10). -/
def Obligations.MemReadRule : Prop :=
  kbsr = 0xFE00 ∧ kbdr = 0xFE02 ∧ ∀ s : State,
    (∀ a, a ≠ kbsr → s.memRead a = .value (s.memPlain a) s) ∧
    (s.noKey → ∃ u, s.memRead kbsr = .value 0x0000 u ∧ u.memPlain kbsr = 0x0000 ∧ sameMemoryBut (· = kbsr) s u ∧
      u = { s with mem := u.mem, input := s.input.tail, trace := s.trace ++ [.probe false] }) ∧
    (∀ b rest, s.input = .byte b :: rest → ∃ u, s.memRead kbsr = .value 0x8000 u ∧ u.memPlain kbsr = 0x8000 ∧
      u.memPlain kbdr = ext16 s.inputExt b ∧ sameMemoryBut (fun a => a = kbsr ∨ a = kbdr) s u ∧
      u = { s with mem := u.mem, input := rest, trace := s.trace ++ [.probe true, .read b] }) ∧
    (∀ rest, s.input = .fail :: rest → ∃ u, s.memRead kbsr = .inputFailure u ∧
      u = { s with input := rest, trace := s.trace ++ [.probe true] } ∧
      ∀ ir k, ∃ t, (s.memRead kbsr).andThen ir k = .next t ∧ Sys2Proof.Claims.pollFailed s t ir rest)

/-- A value written to KBSR is seen by MemPlain but never by MemRead. Derived from 20_memory.md, 4. Ordering. -/
def Obligations.KbsrWriteNeverReadBack : Prop :=
  ∀ (s : State) (v v' : Word),
    (s.memWrite kbsr v).memPlain kbsr = v ∧
    ∀ w u, (s.memWrite kbsr v).memRead kbsr = .value w u →
      (w = 0x0000 ∨ w = 0x8000) ∧ ∃ u', (s.memWrite kbsr v').memRead kbsr = .value w u'

/-- A step runs the instruction whose word stands at PC, with PC already incremented. Derived from
40_fetch_dispatch.md, 1. The step. -/
def Obligations.StepRunsDecoded : Prop :=
  ∀ (s : State) (i : Instr), s.status = .running → s.pc ≠ kbsr → i.wellFormed = true →
    (s.memPlain s.pc = encode i → step s = exec i (s.setPc (s.pc + 1))) ∧
    step (s.withFetchWord 16 (encode i).toNat) =
      exec i ((s.withFetchWord 16 (encode i).toNat).setPc (s.pc + 1))

/-- Every step of a Running block increments PC, reads the old PC's word with MemRead and dispatches it. Formalises
R111: "If the fetch faults (input failure at a fetch from 0xFE00, `20_memory.md` rule R52), PC keeps the incremented
value and nothing is dispatched.". -/
def Obligations.StepFetchesThenDispatches : Prop :=
  ∀ s : State, s.status = .running →
    (∀ w u, (s.setPc (s.pc + 1)).memRead s.pc = .value w u → step s = exec (decode w) u ∧ u.pc = s.pc + 1) ∧
    (∀ u, (s.setPc (s.pc + 1)).memRead s.pc = .inputFailure u → ∃ t, step s = .next t ∧ t.pc = s.pc + 1 ∧
      t.status = .faulted ∧ t.fault.code = .inputFailure ∧ t.regs = s.regs ∧ t.cond = s.cond ∧ t.mem = s.mem)

/-- A fetch from 0xFE00 runs a never-taken BR, faults with ILLEGAL_OPCODE_RTI, or faults with INPUT_FAILURE. Derived
from 60_exceptions.md, 1. Error model (priority), 95_test_vectors.md, Part 2. Derived vectors (FETCH-1 to FETCH-3),
92_eei_decisions.md D3, D10. The faults are the spec's decisions D3 and D10 (log entry 13). The events are the spec's
decision D15 (log entry 13) as the model records them (log entry 10); the devices' answers as lists are its choice
(log entries 2, 3). -/
def Obligations.FetchFromKbsr : Prop :=
  ∀ s : State, s.status = .running → s.pc = kbsr →
    (s.noKey → ∃ t, step s = .next t ∧ t.status = .running ∧ t.memPlain kbsr = 0x0000 ∧
      sameMemoryBut (· = kbsr) s t ∧ t.pc = 0xFE01 ∧ t.regs = s.regs ∧ t.cond = s.cond) ∧
    (∀ b rest, s.input = .byte b :: rest → ∃ t, step s = .next t ∧ t.status = .faulted ∧
      t.fault = ⟨.illegalOpcodeRti, 0xFE00, 0x8000, 0x0008⟩ ∧ t.memPlain kbsr = 0x8000 ∧
      t.memPlain kbdr = ext16 s.inputExt b ∧ sameMemoryBut (fun a => a = kbsr ∨ a = kbdr) s t ∧ t.input = rest ∧
      t.pc = 0xFE01 ∧ t.regs = s.regs ∧ t.cond = s.cond) ∧
    (∀ rest, s.input = .fail :: rest → ∃ t, step s = .next t ∧ t.status = .faulted ∧
      t.fault = ⟨.inputFailure, 0xFE00, 0x0000, 0xFE00⟩ ∧ sameMemory s t ∧ t.input = rest ∧
      t.pc = 0xFE01 ∧ t.regs = s.regs ∧ t.cond = s.cond)

/-- A Halted or Faulted block has no step. Derived from 40_fetch_dispatch.md, 1. The step, 92_eei_decisions.md D6,
D19. That the model shows 'no step' as a stop is its choice (log entry 5). -/
def Obligations.StoppedBlockTakesNoStep : Prop :=
  ∀ s : State, (s.status = .halted → step s = .fault .halted) ∧ (s.status = .faulted → step s = .fault .faulted)

/-- ADD: DR becomes SR1 plus SR2 or sext_5(imm5), modulo 2^16, and COND its class. Formalises R131, R132: "DR may
equal SR1 and/or SR2; both sources are read before DR is written, so `ADD R1, R1, R1` doubles R1.". -/
def Obligations.AddResult : Prop :=
  ∀ (w : Word) (s : State),
    (w &&& 0xF020 = 0x1000 → decode w = .add (field11to9 w) (field8to6 w) (field2to0 w) (field4to3 w) ∧
      ∃ t, exec (decode w) s = .next t ∧
        resultWritten s t (field11to9 w) (s.reg (field8to6 w) + s.reg (field2to0 w))) ∧
    (w &&& 0xF020 = 0x1020 → decode w = .addImm (field11to9 w) (field8to6 w) (field4to0 w) ∧
      ∃ t, exec (decode w) s = .next t ∧
        resultWritten s t (field11to9 w) (s.reg (field8to6 w) + sext (field4to0 w)))

/-- AND: DR becomes SR1 AND SR2 or sext_5(imm5), bit by bit, and COND its class. Formalises R133, R134: "a negative
imm5 extends ones into bits 15..5, so `AND R1, R2, #-16` keeps bits 15..4 of R2.". -/
def Obligations.AndResult : Prop :=
  ∀ (w : Word) (s : State),
    (w &&& 0xF020 = 0x5000 → decode w = .and (field11to9 w) (field8to6 w) (field2to0 w) (field4to3 w) ∧
      ∃ t, exec (decode w) s = .next t ∧
        resultWritten s t (field11to9 w) (s.reg (field8to6 w) &&& s.reg (field2to0 w))) ∧
    (w &&& 0xF020 = 0x5020 → decode w = .andImm (field11to9 w) (field8to6 w) (field4to0 w) ∧
      ∃ t, exec (decode w) s = .next t ∧
        resultWritten s t (field11to9 w) (s.reg (field8to6 w) &&& sext (field4to0 w)))

/-- NOT: DR becomes the inverse of SR1 and COND its class. Formalises R135: "DR ← bitwise-NOT reg[SR1]; update
flags.". -/
def Obligations.NotResult : Prop :=
  ∀ (w : Word) (s : State), w &&& 0xF000 = 0x9000 →
    decode w = .not (field11to9 w) (field8to6 w) (field5to0 w) ∧
    ∃ t, exec (decode w) s = .next t ∧ resultWritten s t (field11to9 w) (~~~ s.reg (field8to6 w))

/-- LD: DR becomes MemRead(PC + sext_9) and COND its class, or the keyboard read fails. Derived from
42_data_movement.md, 1. Loads (LD), 20_memory.md, 1. Access primitives (MemRead), 92_eei_decisions.md D9, D10, D13,
D15, D23, D30, 60_exceptions.md, 1. Error model, 60_exceptions.md, 6. Failures at the boundary,
notes/assumptions/2.md, 9.md, 10.md. The KBSR clauses rest on the spec's decisions D9, D10, D13, D15, D23 and D30 (log
entry 13) and on the model's choices: the input device as a list (log entry 2), FAULT.ir and FAULT.pc (log entry 9)
and which events are recorded (log entry 10). -/
def Obligations.LoadDirectResult : Prop :=
  ∀ (w : Word) (s : State), w &&& 0xF000 = 0x2000 →
    decode w = .ld (field11to9 w) (field8to0 w) ∧
    Sys2Proof.Claims.loads (exec (decode w) s) w s (field11to9 w) (s.pc + sext (field8to0 w))

/-- LDI: DR becomes MemRead(MemRead(PC + sext_9)) and COND its class, either read perhaps of KBSR. Derived from
42_data_movement.md, 1. Loads (LDI), 20_memory.md, 1. Access primitives (MemRead), 92_eei_decisions.md D9, D10, D13,
D15, D23, D30, 60_exceptions.md, 1. Error model, 60_exceptions.md, 6. Failures at the boundary,
notes/assumptions/2.md, 9.md, 10.md. The KBSR clauses rest on the spec's decisions D9, D10, D13, D15, D23 and D30 (log
entry 13) and on the model's choices: the input device as a list (log entry 2), FAULT.ir and FAULT.pc (log entry 9)
and which events are recorded (log entry 10). -/
def Obligations.LoadIndirectResult : Prop :=
  ∀ (w : Word) (s : State), w &&& 0xF000 = 0xA000 →
    decode w = .ldi (field11to9 w) (field8to0 w) ∧
    (s.pc + sext (field8to0 w) ≠ kbsr → Sys2Proof.Claims.loads (exec (decode w) s) w s (field11to9 w)
      (s.memPlain (s.pc + sext (field8to0 w)))) ∧
    (s.pc + sext (field8to0 w) = kbsr → Sys2Proof.Claims.polledLoad (exec (decode w) s) w s (field11to9 w)
      (s.memPlain 0x0000) (s.memPlain 0x8000))

/-- LDR: DR becomes MemRead(BaseR + sext_6) and COND its class, or the keyboard read fails. Derived from
42_data_movement.md, 1. Loads (LDR), 20_memory.md, 1. Access primitives (MemRead), 92_eei_decisions.md D9, D10, D13,
D15, D23, D30, 60_exceptions.md, 1. Error model, 60_exceptions.md, 6. Failures at the boundary,
notes/assumptions/2.md, 9.md, 10.md. The KBSR clauses rest on the spec's decisions D9, D10, D13, D15, D23 and D30 (log
entry 13) and on the model's choices: the input device as a list (log entry 2), FAULT.ir and FAULT.pc (log entry 9)
and which events are recorded (log entry 10). -/
def Obligations.LoadBaseOffsetResult : Prop :=
  ∀ (w : Word) (s : State), w &&& 0xF000 = 0x6000 →
    decode w = .ldr (field11to9 w) (field8to6 w) (field5to0 w) ∧
    Sys2Proof.Claims.loads (exec (decode w) s) w s (field11to9 w) (s.reg (field8to6 w) + sext (field5to0 w))

/-- LEA: DR becomes PC + sext_9 and COND its class; memory is not accessed. Formalises R153: "COND set from the
address (LEA is in the flag-updating set of this block).". -/
def Obligations.LoadEffectiveAddressResult : Prop :=
  ∀ (w : Word) (s : State), w &&& 0xF000 = 0xE000 →
    decode w = .lea (field11to9 w) (field8to0 w) ∧
    ∃ t, exec (decode w) s = .next t ∧ resultWritten s t (field11to9 w) (s.pc + sext (field8to0 w))

/-- ST: MEM[PC + sext_9] becomes the stored register, and nothing else changes. Formalises R154: "a store to 0xFE00 or
0xFE02 is a plain write". -/
def Obligations.StoreDirectResult : Prop :=
  ∀ (w : Word) (s : State), w &&& 0xF000 = 0x3000 →
    decode w = .st (field11to9 w) (field8to0 w) ∧
    ∃ t, exec (decode w) s = .next t ∧ storeWritten s t (s.pc + sext (field8to0 w)) (s.reg (field11to9 w))

/-- STI: MEM[MemRead(PC + sext_9)] becomes the stored register, the pointer perhaps read from KBSR. Derived from
42_data_movement.md, 2. Stores (STI), 20_memory.md, 1. Access primitives (MemRead), 92_eei_decisions.md D9, D10, D13,
D15, D23, D30, 60_exceptions.md, 1. Error model, 60_exceptions.md, 6. Failures at the boundary,
notes/assumptions/2.md, 9.md, 10.md. The KBSR clauses rest on the spec's decisions D9, D10, D13, D15, D23 and D30 (log
entry 13) and on the model's choices: the input device as a list (log entry 2), FAULT.ir and FAULT.pc (log entry 9)
and which events are recorded (log entry 10). -/
def Obligations.StoreIndirectResult : Prop :=
  ∀ (w : Word) (s : State), w &&& 0xF000 = 0xB000 →
    decode w = .sti (field11to9 w) (field8to0 w) ∧
    (s.pc + sext (field8to0 w) ≠ kbsr → ∃ t, exec (decode w) s = .next t ∧
      storeWritten s t (s.memPlain (s.pc + sext (field8to0 w))) (s.reg (field11to9 w))) ∧
    (s.pc + sext (field8to0 w) = kbsr →
      (s.noKey → ∃ t, exec (decode w) s = .next t ∧ t.memPlain 0x0000 = s.reg (field11to9 w) ∧
        t.memPlain kbsr = 0x0000 ∧ sameMemoryBut (fun a => a = 0x0000 ∨ a = kbsr) s t ∧ sameRegs s t ∧
        t.cond = s.cond ∧ Sys2Proof.Claims.polled s t s.input.tail [.probe false]) ∧
      (∀ b rest, s.input = .byte b :: rest → ∃ t, exec (decode w) s = .next t ∧
        t.memPlain 0x8000 = s.reg (field11to9 w) ∧ t.memPlain kbsr = 0x8000 ∧
        t.memPlain kbdr = ext16 s.inputExt b ∧
        sameMemoryBut (fun a => a = 0x8000 ∨ a = kbsr ∨ a = kbdr) s t ∧ sameRegs s t ∧
        t.cond = s.cond ∧ Sys2Proof.Claims.polled s t rest [.probe true, .read b]) ∧
      (∀ rest, s.input = .fail :: rest → ∃ t, exec (decode w) s = .next t ∧ Sys2Proof.Claims.pollFailed s t w rest))

/-- STR: MEM[BaseR + sext_6] becomes the stored register, and nothing else changes. Formalises R156: "SR may equal
BaseR (`STR R1, R1, #0` stores R1's value at the address R1 holds).". -/
def Obligations.StoreBaseOffsetResult : Prop :=
  ∀ (w : Word) (s : State), w &&& 0xF000 = 0x7000 →
    decode w = .str (field11to9 w) (field8to6 w) (field5to0 w) ∧
    ∃ t, exec (decode w) s = .next t ∧
      storeWritten s t (s.reg (field8to6 w) + sext (field5to0 w)) (s.reg (field11to9 w))

/-- LEA then LDR through the computed address loads what LD loads; STI stores where LDI reads. Derived from
42_data_movement.md, 3. Properties. -/
def Obligations.LeaThenLdrIsLd : Prop :=
  ∀ (s : State) (dr sr : RegNum) (off : BitVec 9), s.pc + sext off ≠ kbsr →
    (∃ t u v, exec (.lea dr off) s = .next t ∧ exec (.ldr dr dr 0) t = .next u ∧ exec (.ld dr off) s = .next v ∧
      u.reg dr = v.reg dr ∧ u.cond = v.cond ∧ sameRegs v u ∧ sameMemory v u) ∧
    (s.memPlain (s.pc + sext off) ≠ kbsr → s.memPlain (s.pc + sext off) ≠ s.pc + sext off →
      ∃ t u, exec (.sti sr off) s = .next t ∧ exec (.ldi dr off) t = .next u ∧ u.reg dr = s.reg sr)

/-- BR: PC becomes PC + sext_9 when the mask meets COND, else it is left; nothing else changes. Formalises R180: "if
`cond & COND` is non-zero, PC ← PC + sign_extend(PCoffset9, 9).". -/
def Obligations.BranchResult : Prop :=
  ∀ (w : Word) (s : State), w &&& 0xF000 = 0x0000 →
    decode w = .br (field11to9 w) (field8to0 w) ∧
    ((field11to9 w).setWidth 16 &&& s.cond ≠ 0 →
      ∃ t, exec (decode w) s = .next t ∧ jumped s t false (s.pc + sext (field8to0 w))) ∧
    ((field11to9 w).setWidth 16 &&& s.cond = 0 → exec (decode w) s = .next s)

/-- BR with mask 000 is never taken, with mask 111 always, where COND is legal. Derived from 43_control.md, 1.
Conditional branch. -/
def Obligations.BranchMaskExtremes : Prop :=
  ∀ (s : State) (off : BitVec 9), condLegal s.cond →
    exec (.br 0b000 off) s = .next s ∧
    exec (.br 0b111 off) s = .next (s.setPc (s.pc + sext off)) ∧
    exec (.br 0b111 0x1FF) s = .next (s.setPc (s.pc - 1)) ∧
    (s.branchTaken 0b100 = true ↔ s.cond = 0x0004) ∧ (s.branchTaken 0b010 = true ↔ s.cond = 0x0002) ∧
    (s.branchTaken 0b001 = true ↔ s.cond = 0x0001)

/-- JSR: R7 becomes PC and PC becomes PC + sext_11; nothing else changes. Formalises R182: "The PC added to is the
incremented PC, unchanged by the write of R7.". -/
def Obligations.JsrResult : Prop :=
  ∀ (w : Word) (s : State), w &&& 0xF800 = 0x4800 →
    decode w = .jsr (field10to0 w) ∧
    ∃ t, exec (decode w) s = .next t ∧ jumped s t true (s.pc + sext (field10to0 w))

/-- JSRR: R7 becomes PC, then PC becomes BaseR, R7 read after it was written. Derived from 43_control.md, 2.
Subroutine calls, 92_eei_decisions.md D8. The order is the spec's decision D8 (log entry 13). -/
def Obligations.JsrrResult : Prop :=
  ∀ (w : Word) (s : State), w &&& 0xF800 = 0x4000 →
    decode w = .jsrr (field8to6 w) (field10to9 w) (field5to0 w) ∧
    ∃ t, exec (decode w) s = .next t ∧
      jumped s t true (if field8to6 w = 7 then s.pc else s.reg (field8to6 w))

/-- JMP: PC becomes BaseR; nothing else changes. Formalises R185: "any 16-bit target is legal (no alignment rule,
`20_memory.md` rule R60), including 0xFE00". -/
def Obligations.JmpResult : Prop :=
  ∀ (w : Word) (s : State), w &&& 0xF000 = 0xC000 →
    (field8to6 w ≠ 7 → decode w = .jmp (field8to6 w) (field11to9 w) (field5to0 w)) ∧
    ∃ t, exec (decode w) s = .next t ∧ jumped s t false (s.reg (field8to6 w))

/-- RET: PC becomes R7; R7 and everything else are unchanged. Formalises R186: "any word matching mask 0xF1C0, match
0xC1C0 executes as RET". -/
def Obligations.RetResult : Prop :=
  ∀ (w : Word) (s : State), w &&& 0xF1C0 = 0xC1C0 →
    decode w = .ret (field11to9 w) (field5to0 w) ∧
    ∃ t, exec (decode w) s = .next t ∧ jumped s t false (s.reg 7)

/-- GETC: R7, R0 and COND from the byte read; a failure faults; with no answer the step holds. Derived from
44_trap.md, 2. Service routines (GETC), 92_eei_decisions.md D9, D10, D14. Decisions D10 and D14 and log entries 2, 4
and 13. The events are the spec's decision D15 (log entry 13) as the model records them (log entry 10); the devices'
answers as lists are its choice (log entries 2, 3). -/
def Obligations.GetcResult : Prop :=
  ∀ (w : Word) (s : State), w &&& 0xF0FF = 0xF020 →
    decode w = .trapGetc (field11to8 w) ∧
    (∀ b rest, s.input = .byte b :: rest → ∃ t, exec (decode w) s = .next t ∧
      Sys2Proof.Claims.byteTaken s t b rest [.read b] ∧ t.outAnswers = s.outAnswers) ∧
    (∀ rest, s.input = .fail :: rest → ∃ t, exec (decode w) s = .next t ∧
      stoppedBy s t (· = 7) .inputFailure w 0x0020 ∧ t.reg 7 = s.pc ∧ t.input = rest ∧ sameOutput s t) ∧
    (s.noKey → exec (decode w) s = .next { s with pc := s.pc - 1, input := s.input.tail })

/-- OUT: writes the low byte of R0, then flushes; only R7 is written. Derived from 44_trap.md, 2. Service routines
(OUT), 10_state.md, 9. Block interfaces, 92_eei_decisions.md D15, D31, notes/assumptions/3.md, 10.md. That the output
device may answer Fail is the spec's decision D31 and the trace is its decision D15 (log entry 13); its answers as a
list, Ok when none is left, are the model's choice (log entry 3), and so are the events recorded (log entry 10). -/
def Obligations.OutResult : Prop :=
  ∀ (w : Word) (s : State), w &&& 0xF0FF = 0xF021 → s.outputOk 2 →
    decode w = .trapOut (field11to8 w) ∧
    ∃ t, exec (decode w) s = .next t ∧ Sys2Proof.Claims.written s t 2 [.write ((s.reg 0).extractLsb' 0 8), .flush] ∧
      sameStatus s t

/-- PUTS: writes the low byte of each word from R0 up to the first 0x0000 word, then flushes. Derived from 44_trap.md,
2. Service routines (PUTS), 92_eei_decisions.md D11, D12. The instruction completes: the n low bytes are written in
order and then flushed; R7 = PC; R0, every other register, COND, PC, STATUS and memory are as before, and no device
read happens even where the string covers 0xFE00 (decision D11; wrapping is D12; log entry 13). The events are the
spec's decision D15 (log entry 13) as the model records them (log entry 10); the devices' answers as lists are its
choice (log entries 2, 3). -/
def Obligations.PutsResult : Prop :=
  ∀ (w : Word) (s : State) (n : Nat), w &&& 0xF0FF = 0xF022 → n < 65536 →
    (∀ k < n, s.memPlain (s.reg 0 + BitVec.ofNat 16 k) ≠ 0) → s.memPlain (s.reg 0 + BitVec.ofNat 16 n) = 0 →
    s.outputOk (n + 1) →
    decode w = .trapPuts (field11to8 w) ∧
    ∃ t, exec (decode w) s = .next t ∧ sameStatus s t ∧ Sys2Proof.Claims.written s t (n + 1)
      (((List.range n).map fun k =>
        Event.write ((s.memPlain (s.reg 0 + BitVec.ofNat 16 k)).extractLsb' 0 8)) ++ [.flush])

/-- IN: prompt, read, echo, flush, then R0 and COND; a failure faults; with no answer the step holds. Derived from
44_trap.md, 2. Service routines (IN), 92_eei_decisions.md D9, D10, D14, D20. Decisions D10, D14, D20; log entries 2,
4, 13. The events are the spec's decision D15 (log entry 13) as the model records them (log entry 10); the devices'
answers as lists are its choice (log entries 2, 3). -/
def Obligations.InResult : Prop :=
  ∀ (w : Word) (s : State), w &&& 0xF0FF = 0xF023 →
    decode w = .trapIn (field11to8 w) ∧
    (∀ b rest, s.input = .byte b :: rest → s.outputOk 21 → ∃ t, exec (decode w) s = .next t ∧
      Sys2Proof.Claims.byteTaken s t b rest (Sys2Proof.Claims.promptEvents ++ [.read b, .write b, .flush]) ∧
      t.outAnswers = s.outAnswers.drop 21) ∧
    (∀ rest, s.input = .fail :: rest → s.outputOk 19 → ∃ t, exec (decode w) s = .next t ∧
      stoppedBy s t (· = 7) .inputFailure w 0x0023 ∧ t.reg 7 = s.pc ∧ t.input = rest ∧
      t.outAnswers = s.outAnswers.drop 19 ∧ t.trace = s.trace ++ Sys2Proof.Claims.promptEvents) ∧
    (s.noKey → s.outputOk 19 → exec (decode w) s = .next { s with pc := s.pc - 1, input := s.input.tail })

/-- PUTSP: writes low byte then non-zero high byte of each word up to the first 0x0000 word, then flushes. Derived
from 44_trap.md, 2. Service routines (PUTSP), 92_eei_decisions.md D11, D12. Decisions D11, D12 (log entry 13). The
events are the spec's decision D15 (log entry 13) as the model records them (log entry 10); the devices' answers as
lists are its choice (log entries 2, 3). -/
def Obligations.PutspResult : Prop :=
  ∀ (w : Word) (s : State) (n : Nat), w &&& 0xF0FF = 0xF024 → n < 65536 →
    (∀ k < n, s.memPlain (s.reg 0 + BitVec.ofNat 16 k) ≠ 0) → s.memPlain (s.reg 0 + BitVec.ofNat 16 n) = 0 →
    (let es := ((List.range n).flatMap fun k => Sys2Proof.Claims.packedWrites (s.memPlain (s.reg 0 + BitVec.ofNat 16 k))) ++ [.flush]
     s.outputOk es.length →
      decode w = .trapPutsp (field11to8 w) ∧
      ∃ t, exec (decode w) s = .next t ∧ sameStatus s t ∧ Sys2Proof.Claims.written s t es.length es)

/-- HALT: writes 'HALT' and a newline, flushes, sets STATUS to Halted, and the next step does not exist. Derived from
44_trap.md, 2. Service routines (HALT), 92_eei_decisions.md D19, D20. Decisions D19, D20 (log entry 13). The events
are the spec's decision D15 (log entry 13) as the model records them (log entry 10); the devices' answers as lists are
its choice (log entries 2, 3). -/
def Obligations.HaltResult : Prop :=
  ∀ (w : Word) (s : State), w &&& 0xF0FF = 0xF025 → s.outputOk 6 →
    decode w = .trapHalt (field11to8 w) ∧
    ∃ t, exec (decode w) s = .next t ∧ t.status = .halted ∧ t.fault = s.fault ∧
      Sys2Proof.Claims.written s t 6 [.write 0x48, .write 0x41, .write 0x4C, .write 0x54, .write 0x0A, .flush] ∧
      t.endOfRun = some ⟨t.regs, t.pc, t.cond, t.mem, t.trace⟩ ∧ step t = .fault .halted

/-- TRAP with an unknown vector: R7 becomes PC, then the fault UNKNOWN_TRAP with the vector as info. Derived from
44_trap.md, 2. Service routines (unknown vector), 92_eei_decisions.md D5. The spec's decision D5 (log entry 13). -/
def Obligations.UnknownTrapResult : Prop :=
  ∀ (w : Word) (s : State), w &&& 0xF000 = 0xF000 → knownTrapVector (field7to0 w) = false →
    decode w = .trapUnknown (field11to8 w) (field7to0 w) ∧
    ∃ t, exec (decode w) s = .next t ∧
      stoppedBy s t (· = 7) .unknownTrap w ((field7to0 w).setWidth 16) ∧ t.reg 7 = s.pc ∧ sameDevices s t

/-- A Fail of the output device faults with OUTPUT_FAILURE after the events before it. Derived from 60_exceptions.md,
6. Failures at the boundary, 60_exceptions.md, 1. Error model, 44_trap.md, 2. Service routines, 92_eei_decisions.md
D11, D12, D15, D30, D31, notes/assumptions/3.md, 9.md, 10.md. The spec's decisions D11, D12, D15, D30, D31 (log entry
13); the output device as a list, FAULT.ir and the events recorded are the model's (log entries 3, 9, 10). -/
def Obligations.OutputFailureFaults : Prop :=
  ∀ (x : BitVec 4) (s : State) (k : Nat), s.outputFailsAt k →
    (k < 2 → Sys2Proof.Claims.outputFails (.trapOut x) s k 0x0021
      [.write ((s.reg 0).extractLsb' 0 8), .flush]) ∧
    (k < 6 → Sys2Proof.Claims.outputFails (.trapHalt x) s k 0x0025
      [.write 0x48, .write 0x41, .write 0x4C, .write 0x54, .write 0x0A, .flush]) ∧
    (∀ n, n < 65536 → (∀ j < n, s.memPlain (s.reg 0 + BitVec.ofNat 16 j) ≠ 0) →
      s.memPlain (s.reg 0 + BitVec.ofNat 16 n) = 0 →
      (k < n + 1 → Sys2Proof.Claims.outputFails (.trapPuts x) s k 0x0022
        (((List.range n).map fun j =>
          Event.write ((s.memPlain (s.reg 0 + BitVec.ofNat 16 j)).extractLsb' 0 8)) ++ [.flush])) ∧
      (let es := ((List.range n).flatMap fun j => Sys2Proof.Claims.packedWrites (s.memPlain (s.reg 0 + BitVec.ofNat 16 j))) ++ [.flush]
       k < es.length → Sys2Proof.Claims.outputFails (.trapPutsp x) s k 0x0024 es)) ∧
    (∀ m, m ≤ 65536 → (∀ j < m, s.memPlain (s.reg 0 + BitVec.ofNat 16 j) ≠ 0) →
      (k < m → Sys2Proof.Claims.outputFails (.trapPuts x) s k 0x0022 (Sys2Proof.Claims.putsWrites s m)) ∧
      (k < (Sys2Proof.Claims.putspWrites s m).length →
        Sys2Proof.Claims.outputFails (.trapPutsp x) s k 0x0024 (Sys2Proof.Claims.putspWrites s m))) ∧
    (k < 19 → Sys2Proof.Claims.outputFails (.trapIn x) s k 0x0023 Sys2Proof.Claims.promptEvents) ∧
    (∀ b rest, s.input = .byte b :: rest → 19 ≤ k → k < 21 → ∃ t, exec (.trapIn x) s = .next t ∧
      stoppedBy s t (· = 7) .outputFailure (encode (.trapIn x)) 0x0023 ∧ t.reg 7 = s.pc ∧ t.input = rest ∧
      t.outAnswers = s.outAnswers.drop (k + 1) ∧
      t.trace = s.trace ++ (Sys2Proof.Claims.promptEvents ++ [Event.read b, Event.write b]).take (k + 1))

/-- PUTS and PUTSP have no next state where no word of memory is 0x0000 and none of its Writes fails. Derived from
44_trap.md, 3. Properties of the routines, 92_eei_decisions.md D12, notes/assumptions/3.md, 5.md. The outcome is the
spec's decision D12; that the model shows it as a named stop, and the output device as a list, is its choice (log
entries 3, 5, 13). -/
def Obligations.StringWithoutEndDiverges : Prop :=
  ∀ (x : BitVec 4) (s : State), (∀ a, s.memPlain a ≠ 0) →
    (s.outputOk Config.memorySize → exec (.trapPuts x) s = .fault .diverge) ∧
    (s.outputOk (Sys2Proof.Claims.putspWrites s Config.memorySize).length →
      exec (.trapPutsp x) s = .fault .diverge)

/-- A step of GETC or IN with no answer from the host leaves the whole state but the used-up answer. Derived from
40_fetch_dispatch.md, 2. Outcomes of a step, 92_eei_decisions.md D14. Hold as a next state is the model's choice (log
entry 4); the outcome is the spec's decision D14. -/
def Obligations.HoldChangesNothing : Prop :=
  ∀ s : State, s.status = .running → s.pc ≠ kbsr → s.noKey →
    (s.memPlain s.pc &&& 0xF0FF = 0xF020 ∨ (s.memPlain s.pc &&& 0xF0FF = 0xF023 ∧ s.outputOk 19)) →
    step s = .next { s with input := s.input.tail }

/-- RTI and the reserved opcode take their faults, whatever bits 11..0 hold, and change nothing else. Derived from
45_unused.md, 92_eei_decisions.md D3, D4. The spec's decisions D3 and D4 (log entry 13). -/
def Obligations.UnusedOpcodesFault : Prop :=
  ∀ (w : Word) (s : State),
    (w &&& 0xF000 = 0x8000 → decode w = .rti (field11to0 w) ∧
      ∃ t, exec (decode w) s = .next t ∧ stoppedBy s t (fun _ => False) .illegalOpcodeRti w 0x0008 ∧
        sameDevices s t) ∧
    (w &&& 0xF000 = 0xD000 → decode w = .reserved (field11to0 w) ∧
      ∃ t, exec (decode w) s = .next t ∧ stoppedBy s t (fun _ => False) .illegalOpcodeReserved w 0x000D ∧
        sameDevices s t)

/-- General registers are written only by DR, the R7 of the calls and traps, and the R0 of GETC and IN. Derived from
10_state.md, 2. General registers, 40_fetch_dispatch.md, 2. Outcomes of a step, 92_eei_decisions.md D14,
notes/assumptions/4.md. The exception for a Hold rests on the spec's decision D14 (log entry 13) and on the model's
choice to show a Hold as a next state (log entry 4). -/
def Obligations.RegistersWrittenOnlyBy : Prop :=
  ∀ (i : Instr) (s t : State), exec i s = .next t →
    (∀ r, ¬ i.mayWriteReg r → t.reg r = s.reg r) ∧
    ((i.isTrap = true ∨ (∃ off, i = .jsr off) ∨ ∃ base x y, i = .jsrr base x y) →
      t.reg 7 = s.pc ∨ (s.noKey ∧ t = s.held ∧ ∃ x, i = .trapGetc x ∨ i = .trapIn x))

/-- PC is written only by the fetch increment, a taken BR, JSR, JSRR, JMP and RET. Derived from 10_state.md, 3.
Program counter, 40_fetch_dispatch.md, 2. Outcomes of a step, 92_eei_decisions.md D14, notes/assumptions/4.md. The
exception for a Hold rests on the spec's decision D14 (log entry 13) and on the model's choice to show a Hold as a
next state (log entry 4). -/
def Obligations.PcWrittenOnlyBy : Prop :=
  ∀ s : State,
    (∀ w u, s.fetch = .value w u → u.pc = s.pc + 1) ∧
    (∀ u, s.fetch = .inputFailure u → u.pc = s.pc + 1) ∧
    (∀ i t, exec i s = .next t → i.mayWritePc = false → t.pc = s.pc ∨
      (s.noKey ∧ t = s.held ∧ ∃ x, i = .trapGetc x ∨ i = .trapIn x)) ∧
    (∀ mask off t, exec (.br mask off) s = .next t → mask.setWidth 16 &&& s.cond = 0 → t.pc = s.pc)

/-- COND is written only by the flag-updating set, from the destination register, and read only by BR. Derived from
10_state.md, 4. Condition flags, 40_fetch_dispatch.md, 2. Outcomes of a step, 60_exceptions.md, 1. Error model,
92_eei_decisions.md D14, D30, notes/assumptions/4.md. The exception for a Hold rests on the spec's decision D14 (log
entry 13) and on the model's choice to show a Hold as a next state (log entry 4). That a faulting step leaves COND is
the spec's decision D30 (log entry 13). -/
def Obligations.CondWrittenAndReadOnlyBy : Prop :=
  (∀ (i : Instr) (s t : State), exec i s = .next t →
      match i.flagDest with
      | none => t.cond = s.cond
      | some d => t.cond = condOf (t.reg d) ∨ (t.cond = s.cond ∧ (t.status = .faulted ∨ t = s.held))) ∧
  (∀ (i : Instr) (s t : State) (c : Word), i.isBr = false → exec i s = .next t →
      ∃ t', exec i (s.setCond c) = .next t' ∧ t'.setCond 0 = t.setCond 0)

/-- COND is exactly one of POS, ZRO and NEG at reset and after every step. Formalises R26: "After any instruction,
COND is exactly one of {POS, ZRO, NEG}". -/
def Obligations.CondAlwaysLegal : Prop :=
  condLegal State.reset.cond ∧ ∀ s t : State, condLegal s.cond → step s = .next t → condLegal t.cond

/-- Memory is written only by the stores and by the keyboard intercept, which writes 0xFE00 and 0xFE02 only. Derived
from 20_memory.md, 1. Access primitives, 92_eei_decisions.md D11. -/
def Obligations.MemoryWrittenOnlyBy : Prop :=
  ∀ s : State,
    (∀ i t, exec i s = .next t → i.isStore = false →
      (i.mayPoll = false → sameMemory s t) ∧ sameMemoryBut (fun a => a = kbsr ∨ a = kbdr) s t) ∧
    (∀ w u, s.pc ≠ kbsr → s.fetch = .value w u → sameMemory s u)

/-- Only OUT, PUTS, IN, PUTSP and HALT write output or flush. Derived from 44_trap.md, 3. Properties of the routines,
60_exceptions.md, 6. Failures at the boundary. -/
def Obligations.OutputOnlyByRoutines : Prop :=
  ∀ (i : Instr) (s t : State), exec i s = .next t → i.mayOutput = false →
    t.outAnswers = s.outAnswers ∧ ∃ es, t.trace = s.trace ++ es ∧ ∀ e ∈ es, e.isOutput = false

/-- Every step keeps the input stream: bytes recorded as read, then bytes to come, is the same list. Derived from
10_state.md, 9. Block interfaces, 20_memory.md, 4. Ordering, 92_eei_decisions.md D25. The devices' answers as lists
are the model's choice (log entries 2, 3). -/
def Obligations.EachInputByteIsReadOnce : Prop :=
  ∀ s t : State, step s = .next t →
    readsOf t.trace ++ bytesOf t.input = readsOf s.trace ++ bytesOf s.input ∧
    s.trace <+: t.trace ∧ t.input <:+ s.input ∧ t.outAnswers <:+ s.outAnswers ∧ t.inputExt = s.inputExt

/-- Only the HALT trap takes a Running block to Halted. Derived from 10_state.md, 5. Run flag and stop status,
60_exceptions.md, 5. Platform, 44_trap.md, 2. Service routines (HALT), 92_eei_decisions.md D15, D19, D20,
notes/assumptions/10.md, 13.md. The bytes and the events are the spec's decisions D20 and D15 (log entry 13), the
events as the model records them (log entry 10). -/
def Obligations.OnlyHaltEndsARun : Prop :=
  ∀ s t : State, s.status = .running → step s = .next t → t.status = .halted →
    s.memPlain s.pc &&& 0xF0FF = 0xF025 ∧ t.fault = s.fault ∧
    t.trace = s.trace ++ [.write 0x48, .write 0x41, .write 0x4C, .write 0x54, .write 0x0A, .flush]

/-- A block that faults holds the code and info of its cause, the instruction's address and its word. Derived from
60_exceptions.md, 1. Error model, 92_eei_decisions.md D23. The codes are the spec's decision D23 (log entry 13). -/
def Obligations.FaultCauses : Prop :=
  ∀ (i : Instr) (s t : State), s.status ≠ .faulted → exec i s = .next t → t.status = .faulted →
    t.fault.pc = s.pc - 1 ∧ t.fault.ir = encode i ∧
    ((∃ x, i = .rti x ∧ t.fault.code.number = 1 ∧ t.fault.info = 0x0008) ∨
     (∃ x, i = .reserved x ∧ t.fault.code.number = 2 ∧ t.fault.info = 0x000D) ∨
     (∃ x v, i = .trapUnknown x v ∧ t.fault.code.number = 3 ∧ t.fault.info = v.setWidth 16) ∨
     (i.mayPoll = true ∧ t.fault.code.number = 4 ∧ t.fault.info = 0xFE00) ∨
     (∃ x, i = .trapGetc x ∧ t.fault.code.number = 4 ∧ t.fault.info = 0x0020) ∨
     (∃ x, i = .trapIn x ∧ t.fault.code.number = 4 ∧ t.fault.info = 0x0023) ∨
     (t.fault.code.number = 5 ∧
      ((∃ x, i = .trapOut x ∧ t.fault.info = 0x0021) ∨ (∃ x, i = .trapPuts x ∧ t.fault.info = 0x0022) ∨
       (∃ x, i = .trapIn x ∧ t.fault.info = 0x0023) ∨ (∃ x, i = .trapPutsp x ∧ t.fault.info = 0x0024) ∨
       (∃ x, i = .trapHalt x ∧ t.fault.info = 0x0025))))

/-- A Running block always makes a step, unless a string has no end; no step is ever refused. Derived from
60_exceptions.md, 1. Error model, 40_fetch_dispatch.md, 2. Outcomes of a step, 30_encoding.md, 3. Opcode map,
92_eei_decisions.md D12, D14, notes/assumptions/4.md, 5.md. A Hold (the spec's decision D14, log entry 13) counts as a
next state here by the model's choice (log entry 4), and the outcome Diverge (its decision D12) as a stop (log entry
5). -/
def Obligations.EveryStepIsDefined : Prop :=
  ∀ s : State,
    (s.status = .running → (∃ a, s.memPlain a = 0) → ∃ t, step s = .next t) ∧
    (∀ r, step s ≠ .refused r) ∧
    (∀ f, s.status = .running → step s = .fault f →
      f = .diverge ∧ (∀ a, s.memPlain a ≠ 0) ∧
      (s.memPlain s.pc &&& 0xF0FF = 0xF022 ∨ s.memPlain s.pc &&& 0xF0FF = 0xF024))

/-- The reset state has canonical memory, a legal COND and any fault coded. Derived from 10_state.md, 8. Reset values,
90_conflicts.md C1. -/
def Obligations.InvariantAtReset : Prop :=
  State.reset.Inv

/-- Every step from every state keeps memory canonical, COND legal and every fault coded. Derived from 10_state.md, 4.
Condition flags, 60_exceptions.md, 1. Error model, 20_memory.md, 2. Address space. -/
def Obligations.StepKeepsInvariant : Prop :=
  ∀ s t : State, s.Inv → step s = .next t → t.Inv

/-- Reset leaves R0-R7 zero, PC 0x3000, COND ZRO, STATUS Running and every cell 0x0000. Derived from 10_state.md, 8.
Reset values, 90_conflicts.md C1, 70_reset_and_hazards.md, 1. Reset. At State.reset every general register is 0x0000,
PC is 0x3000, COND is 0x0002 (ZRO, the spec's decision D24), STATUS is Running (RUN true), every cell reads 0x0000 and
no event is recorded; and it is the launch of the block with no image (log entry 8). -/
def Obligations.ResetValues : Prop :=
  (∀ r, State.reset.reg r = 0x0000) ∧ State.reset.pc = 0x3000 ∧ State.reset.cond = 0x0002 ∧
  State.reset.status = .running ∧ State.reset.run = true ∧ (∀ a, State.reset.memPlain a = 0x0000) ∧
  State.reset.trace = [] ∧ State.launch [] [] [] .zero = some State.reset

/-- The launched block is the reset block with the images' memory, in order, and the launch arguments; later images
win; a failing image means no launch. Derived from 70_reset_and_hazards.md, 1. Reset, 70_reset_and_hazards.md, 2. Boot
and images, 10_state.md, 8. Reset values, 90_conflicts.md C1, 92_eei_decisions.md D22, D24, notes/assumptions/8.md.
The launch arguments as fields of State are the model's choice (log entries 2, 3, 7, 8); COND is the spec's decision
D24 (log entry 13). -/
def Obligations.LaunchEstablishesInvariant : Prop :=
  ∀ (images : List Image) (input : List InAnswer) (out : List OutAnswer) (ext : Config.InputExt),
    (∀ s, State.launch images input out ext = some s ↔
      ∃ mem0, loadImages images [] = some mem0 ∧
        s = { State.reset with mem := mem0, input := input, outAnswers := out, inputExt := ext }) ∧
    (∀ s, State.launch images input out ext = some s →
      s.Inv ∧ s.pc = 0x3000 ∧ (∀ r, s.reg r = 0x0000) ∧ s.cond = 0x0002 ∧ s.status = .running ∧ s.trace = []) ∧
    (∀ s (origin : Word) (ws : List Word), State.launch images input out ext = some s →
      origin.toNat + ws.length ≤ 65536 →
      ∃ t, State.launch (images ++ [some (Sys2Proof.Claims.imageBytes (origin :: ws))]) input out ext = some t ∧
        ∀ a : Word, t.memPlain a = if h : origin.toNat ≤ a.toNat ∧ a.toNat - origin.toNat < ws.length
          then ws[a.toNat - origin.toNat]'h.2 else s.memPlain a) ∧
    ((∃ img ∈ images, ∀ m, loadImage img m = none) → State.launch images input out ext = none)

/-- Reading back memory from the origin gives the image's words, and no other cell changed. Derived from
70_reset_and_hazards.md, 2. Boot and images, 92_eei_decisions.md D18, D22. -/
def Obligations.LoadedImageReadsBack : Prop :=
  ∀ (origin : Word) (ws : List Word) (m : Memory), origin.toNat + ws.length ≤ 65536 →
    ∃ m', loadImage (some (Sys2Proof.Claims.imageBytes (origin :: ws))) m = some m' ∧
      ∀ a : Nat, m'.read a = if h : origin.toNat ≤ a ∧ a - origin.toNat < ws.length
        then ws[a - origin.toNat]'h.2 else m.read a

/-- Bytes beyond the bound are ignored; an odd byte within it, or fewer than two bytes, is a failure. Derived from
70_reset_and_hazards.md, 2. Boot and images, 92_eei_decisions.md D21. The spec's decision D21 (log entry 13). -/
def Obligations.ImageLengthEdges : Prop :=
  ∀ (origin : Word) (ws : List Word) (m : Memory),
    (origin.toNat + ws.length = 65536 → ∀ extra : List Byte,
      loadImage (some (Sys2Proof.Claims.imageBytes (origin :: ws) ++ extra)) m =
        loadImage (some (Sys2Proof.Claims.imageBytes (origin :: ws))) m) ∧
    (origin.toNat + ws.length < 65536 → ∀ b : Byte,
      loadImage (some (Sys2Proof.Claims.imageBytes (origin :: ws) ++ [b])) m = none) ∧
    loadImage none m = none ∧ loadImage (some []) m = none ∧ (∀ b : Byte, loadImage (some [b]) m = none) ∧
    loadImage (some (Sys2Proof.Claims.imageBytes [origin])) m = some m
end

