-- ==== Sys2Proof/Laws/Decode.lean ====
section
/-! SUPPORT. One lemma per row of spec/opcode_table.json: a word that matches the row's mask and match (and no narrower
row's) decodes to the row's instruction, with its fields. -/

namespace Sys2Proof

variable {w : Word}

/-- The opcode field of a word that matches a row whose mask fixes bits 15..12. -/
theorem opcodeField_of_matches {m v : Word} (hm : opcodeField m = 0xF#4) (h : w &&& m = v) :
    opcodeField w = opcodeField v := by
  rw [← h]
  simp only [opcodeField, BitVec.extractLsb'_and] at hm ⊢
  rw [hm]
  apply BitVec.eq_of_getLsbD_eq
  intro i hi
  interval_cases i <;> simp

/-- The vector field of a word that matches a row whose mask fixes bits 7..0. -/
theorem field7to0_of_matches {m v : Word} (hm : field7to0 m = 0xFF#8) (h : w &&& m = v) :
    field7to0 w = field7to0 v := by
  rw [← h]
  simp only [field7to0, BitVec.extractLsb'_and] at hm ⊢
  rw [hm]
  apply BitVec.eq_of_getLsbD_eq
  intro i hi
  interval_cases i <;> simp

theorem field8to6_of_matches {m v : Word} (hm : field8to6 m = 0x7#3) (h : w &&& m = v) :
    field8to6 w = field8to6 v := by
  rw [← h]
  simp only [field8to6, BitVec.extractLsb'_and] at hm ⊢
  rw [hm]
  apply BitVec.eq_of_getLsbD_eq
  intro i hi
  interval_cases i <;> simp

theorem getLsbD_of_matches {m v : Word} {i : Nat} (hm : m.getLsbD i = true) (h : w &&& m = v) :
    w.getLsbD i = v.getLsbD i := by
  rw [← h, BitVec.getLsbD_and, hm, Bool.and_true]

theorem decode_br (h : w &&& 0xF000 = 0x0000) : decode w = .br (field11to9 w) (field8to0 w) := by
  have o : opcodeField w = 0x0#4 := opcodeField_of_matches (by decide) h
  simp [decode, o]

theorem decode_add (h : w &&& 0xF020 = 0x1000) :
    decode w = .add (field11to9 w) (field8to6 w) (field2to0 w) (field4to3 w) := by
  have o : opcodeField w = 0x1#4 := opcodeField_of_matches (by decide) h
  have b : w.getLsbD 5 = false := getLsbD_of_matches (by decide) h
  simp only [decode, o, b, Bool.false_eq_true, if_false]

theorem decode_addImm (h : w &&& 0xF020 = 0x1020) :
    decode w = .addImm (field11to9 w) (field8to6 w) (field4to0 w) := by
  have o : opcodeField w = 0x1#4 := opcodeField_of_matches (by decide) h
  have b : w.getLsbD 5 = true := getLsbD_of_matches (by decide) h
  simp only [decode, o, b, if_true]

theorem decode_ld (h : w &&& 0xF000 = 0x2000) : decode w = .ld (field11to9 w) (field8to0 w) := by
  have o : opcodeField w = 0x2#4 := opcodeField_of_matches (by decide) h
  simp only [decode, o]

theorem decode_st (h : w &&& 0xF000 = 0x3000) : decode w = .st (field11to9 w) (field8to0 w) := by
  have o : opcodeField w = 0x3#4 := opcodeField_of_matches (by decide) h
  simp only [decode, o]

theorem decode_jsr (h : w &&& 0xF800 = 0x4800) : decode w = .jsr (field10to0 w) := by
  have o : opcodeField w = 0x4#4 := opcodeField_of_matches (by decide) h
  have b : w.getLsbD 11 = true := getLsbD_of_matches (by decide) h
  simp only [decode, o, b, if_true]

theorem decode_jsrr (h : w &&& 0xF800 = 0x4000) :
    decode w = .jsrr (field8to6 w) (field10to9 w) (field5to0 w) := by
  have o : opcodeField w = 0x4#4 := opcodeField_of_matches (by decide) h
  have b : w.getLsbD 11 = false := getLsbD_of_matches (by decide) h
  simp only [decode, o, b, Bool.false_eq_true, if_false]

theorem decode_and (h : w &&& 0xF020 = 0x5000) :
    decode w = .and (field11to9 w) (field8to6 w) (field2to0 w) (field4to3 w) := by
  have o : opcodeField w = 0x5#4 := opcodeField_of_matches (by decide) h
  have b : w.getLsbD 5 = false := getLsbD_of_matches (by decide) h
  simp only [decode, o, b, Bool.false_eq_true, if_false]

theorem decode_andImm (h : w &&& 0xF020 = 0x5020) :
    decode w = .andImm (field11to9 w) (field8to6 w) (field4to0 w) := by
  have o : opcodeField w = 0x5#4 := opcodeField_of_matches (by decide) h
  have b : w.getLsbD 5 = true := getLsbD_of_matches (by decide) h
  simp only [decode, o, b, if_true]

theorem decode_ldr (h : w &&& 0xF000 = 0x6000) :
    decode w = .ldr (field11to9 w) (field8to6 w) (field5to0 w) := by
  have o : opcodeField w = 0x6#4 := opcodeField_of_matches (by decide) h
  simp only [decode, o]

theorem decode_str (h : w &&& 0xF000 = 0x7000) :
    decode w = .str (field11to9 w) (field8to6 w) (field5to0 w) := by
  have o : opcodeField w = 0x7#4 := opcodeField_of_matches (by decide) h
  simp only [decode, o]

theorem decode_rti (h : w &&& 0xF000 = 0x8000) : decode w = .rti (field11to0 w) := by
  have o : opcodeField w = 0x8#4 := opcodeField_of_matches (by decide) h
  simp only [decode, o]

theorem decode_not (h : w &&& 0xF000 = 0x9000) :
    decode w = .not (field11to9 w) (field8to6 w) (field5to0 w) := by
  have o : opcodeField w = 0x9#4 := opcodeField_of_matches (by decide) h
  simp only [decode, o]

theorem decode_ldi (h : w &&& 0xF000 = 0xA000) : decode w = .ldi (field11to9 w) (field8to0 w) := by
  have o : opcodeField w = 0xA#4 := opcodeField_of_matches (by decide) h
  simp only [decode, o]

theorem decode_sti (h : w &&& 0xF000 = 0xB000) : decode w = .sti (field11to9 w) (field8to0 w) := by
  have o : opcodeField w = 0xB#4 := opcodeField_of_matches (by decide) h
  simp only [decode, o]

theorem decode_jmp (h : w &&& 0xF000 = 0xC000) (hb : field8to6 w ≠ 7) :
    decode w = .jmp (field8to6 w) (field11to9 w) (field5to0 w) := by
  have o : opcodeField w = 0xC#4 := opcodeField_of_matches (by decide) h
  simp only [decode, o, hb, if_false]

theorem decode_ret (h : w &&& 0xF1C0 = 0xC1C0) : decode w = .ret (field11to9 w) (field5to0 w) := by
  have o : opcodeField w = 0xC#4 := opcodeField_of_matches (by decide) h
  have b : field8to6 w = 7 := field8to6_of_matches (by decide) h
  simp only [decode, o, b, if_true]

/-- The same for a word of opcode 1100 whose BaseR field is 7. -/
theorem decode_ret_of_baseR (h : w &&& 0xF000 = 0xC000) (hb : field8to6 w = 7) :
    decode w = .ret (field11to9 w) (field5to0 w) := by
  have o : opcodeField w = 0xC#4 := opcodeField_of_matches (by decide) h
  simp only [decode, o, hb, if_true]

theorem decode_reserved (h : w &&& 0xF000 = 0xD000) : decode w = .reserved (field11to0 w) := by
  have o : opcodeField w = 0xD#4 := opcodeField_of_matches (by decide) h
  simp only [decode, o]

theorem decode_lea (h : w &&& 0xF000 = 0xE000) : decode w = .lea (field11to9 w) (field8to0 w) := by
  have o : opcodeField w = 0xE#4 := opcodeField_of_matches (by decide) h
  simp only [decode, o]

/-- Opcode 1111 goes to the choice by vector. -/
theorem decode_trap (h : opcodeField w = 0xF#4) : decode w = decodeTrap w := by
  simp only [decode, h]
  rfl

theorem decode_trapGetc (h : w &&& 0xF0FF = 0xF020) : decode w = .trapGetc (field11to8 w) := by
  have v : field7to0 w = 0x20#8 := field7to0_of_matches (by decide) h
  rw [decode_trap (opcodeField_of_matches (by decide) h), decodeTrap, v]
  rfl

theorem decode_trapOut (h : w &&& 0xF0FF = 0xF021) : decode w = .trapOut (field11to8 w) := by
  have v : field7to0 w = 0x21#8 := field7to0_of_matches (by decide) h
  rw [decode_trap (opcodeField_of_matches (by decide) h), decodeTrap, v]
  rfl

theorem decode_trapPuts (h : w &&& 0xF0FF = 0xF022) : decode w = .trapPuts (field11to8 w) := by
  have v : field7to0 w = 0x22#8 := field7to0_of_matches (by decide) h
  rw [decode_trap (opcodeField_of_matches (by decide) h), decodeTrap, v]
  rfl

theorem decode_trapIn (h : w &&& 0xF0FF = 0xF023) : decode w = .trapIn (field11to8 w) := by
  have v : field7to0 w = 0x23#8 := field7to0_of_matches (by decide) h
  rw [decode_trap (opcodeField_of_matches (by decide) h), decodeTrap, v]
  rfl

theorem decode_trapPutsp (h : w &&& 0xF0FF = 0xF024) : decode w = .trapPutsp (field11to8 w) := by
  have v : field7to0 w = 0x24#8 := field7to0_of_matches (by decide) h
  rw [decode_trap (opcodeField_of_matches (by decide) h), decodeTrap, v]
  rfl

theorem decode_trapHalt (h : w &&& 0xF0FF = 0xF025) : decode w = .trapHalt (field11to8 w) := by
  have v : field7to0 w = 0x25#8 := field7to0_of_matches (by decide) h
  rw [decode_trap (opcodeField_of_matches (by decide) h), decodeTrap, v]
  rfl

theorem decode_trapUnknown (h : w &&& 0xF000 = 0xF000) (hv : knownTrapVector (field7to0 w) = false) :
    decode w = .trapUnknown (field11to8 w) (field7to0 w) := by
  rw [decode_trap (opcodeField_of_matches (by decide) h), decodeTrap]
  split <;> first | rfl | (rename_i e; rw [e] at hv; exact absurd hv (by decide))

end Sys2Proof
end

