-- ==== Sys2Proof/Laws/State.lean ====
section
/-! SUPPORT. One lemma per field per named update of State, true by rfl, and what the updates do to the register and
memory reads. Later proofs cite these and never unfold a record update. -/

namespace Sys2Proof.Machine

variable (s : State)

/-! ### setReg -/

@[simp] theorem State.setReg_regs (r : RegNum) (v : Word) : (s.setReg r v).regs = s.regs.set r.toNat v r.isLt := rfl
@[simp] theorem State.setReg_pc (r : RegNum) (v : Word) : (s.setReg r v).pc = s.pc := rfl
@[simp] theorem State.setReg_cond (r : RegNum) (v : Word) : (s.setReg r v).cond = s.cond := rfl
@[simp] theorem State.setReg_status (r : RegNum) (v : Word) : (s.setReg r v).status = s.status := rfl
@[simp] theorem State.setReg_fault (r : RegNum) (v : Word) : (s.setReg r v).fault = s.fault := rfl
@[simp] theorem State.setReg_mem (r : RegNum) (v : Word) : (s.setReg r v).mem = s.mem := rfl
@[simp] theorem State.setReg_inputExt (r : RegNum) (v : Word) : (s.setReg r v).inputExt = s.inputExt := rfl
@[simp] theorem State.setReg_input (r : RegNum) (v : Word) : (s.setReg r v).input = s.input := rfl
@[simp] theorem State.setReg_outAnswers (r : RegNum) (v : Word) : (s.setReg r v).outAnswers = s.outAnswers := rfl
@[simp] theorem State.setReg_trace (r : RegNum) (v : Word) : (s.setReg r v).trace = s.trace := rfl
@[simp] theorem State.setReg_memPlain (r : RegNum) (v : Word) (a : Word) : (s.setReg r v).memPlain a = s.memPlain a := rfl

/-! ### setPc -/

@[simp] theorem State.setPc_regs (v : Word) : (s.setPc v).regs = s.regs := rfl
@[simp] theorem State.setPc_pc (v : Word) : (s.setPc v).pc = v := rfl
@[simp] theorem State.setPc_cond (v : Word) : (s.setPc v).cond = s.cond := rfl
@[simp] theorem State.setPc_status (v : Word) : (s.setPc v).status = s.status := rfl
@[simp] theorem State.setPc_fault (v : Word) : (s.setPc v).fault = s.fault := rfl
@[simp] theorem State.setPc_mem (v : Word) : (s.setPc v).mem = s.mem := rfl
@[simp] theorem State.setPc_inputExt (v : Word) : (s.setPc v).inputExt = s.inputExt := rfl
@[simp] theorem State.setPc_input (v : Word) : (s.setPc v).input = s.input := rfl
@[simp] theorem State.setPc_outAnswers (v : Word) : (s.setPc v).outAnswers = s.outAnswers := rfl
@[simp] theorem State.setPc_trace (v : Word) : (s.setPc v).trace = s.trace := rfl
@[simp] theorem State.setPc_reg (v : Word) (q : RegNum) : (s.setPc v).reg q = s.reg q := rfl
@[simp] theorem State.setPc_memPlain (v : Word) (a : Word) : (s.setPc v).memPlain a = s.memPlain a := rfl

/-! ### setCond -/

@[simp] theorem State.setCond_regs (v : Word) : (s.setCond v).regs = s.regs := rfl
@[simp] theorem State.setCond_pc (v : Word) : (s.setCond v).pc = s.pc := rfl
@[simp] theorem State.setCond_cond (v : Word) : (s.setCond v).cond = v := rfl
@[simp] theorem State.setCond_status (v : Word) : (s.setCond v).status = s.status := rfl
@[simp] theorem State.setCond_fault (v : Word) : (s.setCond v).fault = s.fault := rfl
@[simp] theorem State.setCond_mem (v : Word) : (s.setCond v).mem = s.mem := rfl
@[simp] theorem State.setCond_inputExt (v : Word) : (s.setCond v).inputExt = s.inputExt := rfl
@[simp] theorem State.setCond_input (v : Word) : (s.setCond v).input = s.input := rfl
@[simp] theorem State.setCond_outAnswers (v : Word) : (s.setCond v).outAnswers = s.outAnswers := rfl
@[simp] theorem State.setCond_trace (v : Word) : (s.setCond v).trace = s.trace := rfl
@[simp] theorem State.setCond_reg (v : Word) (q : RegNum) : (s.setCond v).reg q = s.reg q := rfl
@[simp] theorem State.setCond_memPlain (v : Word) (a : Word) : (s.setCond v).memPlain a = s.memPlain a := rfl

/-! ### setStatus -/

@[simp] theorem State.setStatus_regs (v : Status) : (s.setStatus v).regs = s.regs := rfl
@[simp] theorem State.setStatus_pc (v : Status) : (s.setStatus v).pc = s.pc := rfl
@[simp] theorem State.setStatus_cond (v : Status) : (s.setStatus v).cond = s.cond := rfl
@[simp] theorem State.setStatus_status (v : Status) : (s.setStatus v).status = v := rfl
@[simp] theorem State.setStatus_fault (v : Status) : (s.setStatus v).fault = s.fault := rfl
@[simp] theorem State.setStatus_mem (v : Status) : (s.setStatus v).mem = s.mem := rfl
@[simp] theorem State.setStatus_inputExt (v : Status) : (s.setStatus v).inputExt = s.inputExt := rfl
@[simp] theorem State.setStatus_input (v : Status) : (s.setStatus v).input = s.input := rfl
@[simp] theorem State.setStatus_outAnswers (v : Status) : (s.setStatus v).outAnswers = s.outAnswers := rfl
@[simp] theorem State.setStatus_trace (v : Status) : (s.setStatus v).trace = s.trace := rfl
@[simp] theorem State.setStatus_reg (v : Status) (q : RegNum) : (s.setStatus v).reg q = s.reg q := rfl
@[simp] theorem State.setStatus_memPlain (v : Status) (a : Word) : (s.setStatus v).memPlain a = s.memPlain a := rfl

/-! ### setFault -/

@[simp] theorem State.setFault_regs (v : FaultRecord) : (s.setFault v).regs = s.regs := rfl
@[simp] theorem State.setFault_pc (v : FaultRecord) : (s.setFault v).pc = s.pc := rfl
@[simp] theorem State.setFault_cond (v : FaultRecord) : (s.setFault v).cond = s.cond := rfl
@[simp] theorem State.setFault_status (v : FaultRecord) : (s.setFault v).status = s.status := rfl
@[simp] theorem State.setFault_fault (v : FaultRecord) : (s.setFault v).fault = v := rfl
@[simp] theorem State.setFault_mem (v : FaultRecord) : (s.setFault v).mem = s.mem := rfl
@[simp] theorem State.setFault_inputExt (v : FaultRecord) : (s.setFault v).inputExt = s.inputExt := rfl
@[simp] theorem State.setFault_input (v : FaultRecord) : (s.setFault v).input = s.input := rfl
@[simp] theorem State.setFault_outAnswers (v : FaultRecord) : (s.setFault v).outAnswers = s.outAnswers := rfl
@[simp] theorem State.setFault_trace (v : FaultRecord) : (s.setFault v).trace = s.trace := rfl
@[simp] theorem State.setFault_reg (v : FaultRecord) (q : RegNum) : (s.setFault v).reg q = s.reg q := rfl
@[simp] theorem State.setFault_memPlain (v : FaultRecord) (a : Word) : (s.setFault v).memPlain a = s.memPlain a := rfl

/-! ### setInput -/

@[simp] theorem State.setInput_regs (l : List InAnswer) : (s.setInput l).regs = s.regs := rfl
@[simp] theorem State.setInput_pc (l : List InAnswer) : (s.setInput l).pc = s.pc := rfl
@[simp] theorem State.setInput_cond (l : List InAnswer) : (s.setInput l).cond = s.cond := rfl
@[simp] theorem State.setInput_status (l : List InAnswer) : (s.setInput l).status = s.status := rfl
@[simp] theorem State.setInput_fault (l : List InAnswer) : (s.setInput l).fault = s.fault := rfl
@[simp] theorem State.setInput_mem (l : List InAnswer) : (s.setInput l).mem = s.mem := rfl
@[simp] theorem State.setInput_inputExt (l : List InAnswer) : (s.setInput l).inputExt = s.inputExt := rfl
@[simp] theorem State.setInput_input (l : List InAnswer) : (s.setInput l).input = l := rfl
@[simp] theorem State.setInput_outAnswers (l : List InAnswer) : (s.setInput l).outAnswers = s.outAnswers := rfl
@[simp] theorem State.setInput_trace (l : List InAnswer) : (s.setInput l).trace = s.trace := rfl
@[simp] theorem State.setInput_reg (l : List InAnswer) (q : RegNum) : (s.setInput l).reg q = s.reg q := rfl
@[simp] theorem State.setInput_memPlain (l : List InAnswer) (a : Word) : (s.setInput l).memPlain a = s.memPlain a := rfl

/-! ### setOutAnswers -/

@[simp] theorem State.setOutAnswers_regs (l : List OutAnswer) : (s.setOutAnswers l).regs = s.regs := rfl
@[simp] theorem State.setOutAnswers_pc (l : List OutAnswer) : (s.setOutAnswers l).pc = s.pc := rfl
@[simp] theorem State.setOutAnswers_cond (l : List OutAnswer) : (s.setOutAnswers l).cond = s.cond := rfl
@[simp] theorem State.setOutAnswers_status (l : List OutAnswer) : (s.setOutAnswers l).status = s.status := rfl
@[simp] theorem State.setOutAnswers_fault (l : List OutAnswer) : (s.setOutAnswers l).fault = s.fault := rfl
@[simp] theorem State.setOutAnswers_mem (l : List OutAnswer) : (s.setOutAnswers l).mem = s.mem := rfl
@[simp] theorem State.setOutAnswers_inputExt (l : List OutAnswer) : (s.setOutAnswers l).inputExt = s.inputExt := rfl
@[simp] theorem State.setOutAnswers_input (l : List OutAnswer) : (s.setOutAnswers l).input = s.input := rfl
@[simp] theorem State.setOutAnswers_outAnswers (l : List OutAnswer) : (s.setOutAnswers l).outAnswers = l := rfl
@[simp] theorem State.setOutAnswers_trace (l : List OutAnswer) : (s.setOutAnswers l).trace = s.trace := rfl
@[simp] theorem State.setOutAnswers_reg (l : List OutAnswer) (q : RegNum) : (s.setOutAnswers l).reg q = s.reg q := rfl
@[simp] theorem State.setOutAnswers_memPlain (l : List OutAnswer) (a : Word) : (s.setOutAnswers l).memPlain a = s.memPlain a := rfl

/-! ### log -/

@[simp] theorem State.log_regs (e : Event) : (s.log e).regs = s.regs := rfl
@[simp] theorem State.log_pc (e : Event) : (s.log e).pc = s.pc := rfl
@[simp] theorem State.log_cond (e : Event) : (s.log e).cond = s.cond := rfl
@[simp] theorem State.log_status (e : Event) : (s.log e).status = s.status := rfl
@[simp] theorem State.log_fault (e : Event) : (s.log e).fault = s.fault := rfl
@[simp] theorem State.log_mem (e : Event) : (s.log e).mem = s.mem := rfl
@[simp] theorem State.log_inputExt (e : Event) : (s.log e).inputExt = s.inputExt := rfl
@[simp] theorem State.log_input (e : Event) : (s.log e).input = s.input := rfl
@[simp] theorem State.log_outAnswers (e : Event) : (s.log e).outAnswers = s.outAnswers := rfl
@[simp] theorem State.log_trace (e : Event) : (s.log e).trace = s.trace ++ [e] := rfl
@[simp] theorem State.log_reg (e : Event) (q : RegNum) : (s.log e).reg q = s.reg q := rfl
@[simp] theorem State.log_memPlain (e : Event) (a : Word) : (s.log e).memPlain a = s.memPlain a := rfl

/-! ### memWrite -/

@[simp] theorem State.memWrite_regs (a v : Word) : (s.memWrite a v).regs = s.regs := rfl
@[simp] theorem State.memWrite_pc (a v : Word) : (s.memWrite a v).pc = s.pc := rfl
@[simp] theorem State.memWrite_cond (a v : Word) : (s.memWrite a v).cond = s.cond := rfl
@[simp] theorem State.memWrite_status (a v : Word) : (s.memWrite a v).status = s.status := rfl
@[simp] theorem State.memWrite_fault (a v : Word) : (s.memWrite a v).fault = s.fault := rfl
@[simp] theorem State.memWrite_mem (a v : Word) : (s.memWrite a v).mem = s.mem.write a.toNat v := rfl
@[simp] theorem State.memWrite_inputExt (a v : Word) : (s.memWrite a v).inputExt = s.inputExt := rfl
@[simp] theorem State.memWrite_input (a v : Word) : (s.memWrite a v).input = s.input := rfl
@[simp] theorem State.memWrite_outAnswers (a v : Word) : (s.memWrite a v).outAnswers = s.outAnswers := rfl
@[simp] theorem State.memWrite_trace (a v : Word) : (s.memWrite a v).trace = s.trace := rfl
@[simp] theorem State.memWrite_reg (a v : Word) (q : RegNum) : (s.memWrite a v).reg q = s.reg q := rfl

/-! ### Registers -/

theorem State.reg_setReg (r q : RegNum) (v : Word) : (s.setReg r v).reg q = if q = r then v else s.reg q := by
  simp only [State.reg, State.setReg, Vector.getElem_set]
  by_cases h : q = r
  · simp [h]
  · have : ¬ r.toNat = q.toNat := fun e => h (BitVec.eq_of_toNat_eq e.symm)
    simp [h, this]

@[simp] theorem State.reg_setReg_self (r : RegNum) (v : Word) : (s.setReg r v).reg r = v := by
  simp [State.reg_setReg]

theorem State.reg_setReg_ne {r q : RegNum} (v : Word) (h : q ≠ r) : (s.setReg r v).reg q = s.reg q := by
  simp [State.reg_setReg, h]

end Sys2Proof.Machine
end

