-- ==== Sys2Proof/Laws/Memory.lean ====
section
/-! SUPPORT. The laws of memory: read after write (for every memory, canonical or not), and that a write keeps the
canonical form. -/

namespace Sys2Proof.Machine

theorem Memory.read_erase (m : Memory) (a b : Nat) :
    Memory.read (Memory.erase m a) b = if b = a then 0 else Memory.read m b := by
  induction m with
  | nil => simp [Memory.erase, Memory.read]
  | cons c m ih =>
    obtain ⟨k, w⟩ := c
    simp only [Memory.erase] at ih ⊢
    by_cases hk : k = a
    · subst hk
      by_cases hb : b = k
      · simpa [hb] using ih
      · simp [Memory.read, Ne.symm hb, hb, ih]
    · by_cases hb : k = b
      · subst hb
        simp [hk, Memory.read]
      · simp [hk, Memory.read, hb, ih]

theorem Memory.read_insert (m : Memory) (a b : Nat) (v : Word)
    (h : ∀ c ∈ m, c.1 ≠ a) :
    Memory.read (Memory.insert m a v) b = if b = a then v else Memory.read m b := by
  induction m with
  | nil =>
    by_cases hb : b = a
    · simp [Memory.insert, Memory.read, hb]
    · simp [Memory.insert, Memory.read, hb, Ne.symm hb]
  | cons c m ih =>
    obtain ⟨k, w⟩ := c
    have hk : k ≠ a := h (k, w) (by simp)
    have ih := ih (fun c hc => h c (by simp [hc]))
    unfold Memory.insert
    split
    · by_cases hb : b = a
      · simp [Memory.read, hb]
      · simp [Memory.read, hb, Ne.symm hb]
    · by_cases hb : k = b
      · subst hb
        simp [Memory.read, hk]
      · simp [Memory.read, hb, ih]

theorem Memory.not_mem_erase (m : Memory) (a : Nat) : ∀ c ∈ Memory.erase m a, c.1 ≠ a := by
  simp [Memory.erase]

/-- A read after a write gives the value written at that address and what was there before at every other. -/
theorem Memory.read_write (m : Memory) (a b : Nat) (v : Word) :
    Memory.read (Memory.write m a v) b = if b = a then v else Memory.read m b := by
  unfold Memory.write
  split
  · next h => simp [Memory.read_erase, h]
  · rw [Memory.read_insert _ _ _ _ (Memory.not_mem_erase m a), Memory.read_erase]
    split <;> rfl

theorem Memory.mem_insert {m : Memory} {a : Nat} {v : Word} {c : Cell} :
    c ∈ Memory.insert m a v ↔ c = (a, v) ∨ c ∈ m := by
  induction m with
  | nil => simp [Memory.insert]
  | cons d m ih =>
    obtain ⟨k, w⟩ := d
    unfold Memory.insert
    split
    · simp
    · simp only [List.mem_cons, ih]
      tauto

theorem Memory.wf_erase {m : Memory} (h : m.wf) (a : Nat) : (Memory.erase m a).wf :=
  ⟨h.1.filter _, fun c hc => h.2 c (List.mem_filter.mp hc).1⟩

theorem Memory.wf_insert {m : Memory} (h : m.wf) {a : Nat} {v : Word} (ha : a < Config.memorySize) (hv : v ≠ 0)
    (hm : ∀ c ∈ m, c.1 ≠ a) : (Memory.insert m a v).wf := by
  refine ⟨?_, fun c hc => ?_⟩
  · obtain ⟨h, -⟩ := h
    induction m with
    | nil => simp [Memory.insert]
    | cons d m ih =>
      obtain ⟨k, w⟩ := d
      rw [List.pairwise_cons] at h
      have hk : k ≠ a := hm (k, w) (by simp)
      unfold Memory.insert
      split
      · next hlt =>
        refine List.pairwise_cons.mpr ⟨fun c hc => ?_, List.pairwise_cons.mpr h⟩
        rcases List.mem_cons.mp hc with rfl | hc
        · exact hlt
        · exact lt_trans hlt (h.1 c hc)
      · next hlt =>
        refine List.pairwise_cons.mpr ⟨fun c hc => ?_, ih (fun c hc => hm c (by simp [hc])) h.2⟩
        rcases Memory.mem_insert.mp hc with rfl | hc
        · show k < a
          omega
        · exact h.1 c hc
  · rcases Memory.mem_insert.mp hc with rfl | hc
    · exact ⟨ha, hv⟩
    · exact h.2 c hc

/-- A write inside the address space keeps the canonical form. -/
theorem Memory.wf_write {m : Memory} (h : m.wf) {a : Nat} (ha : a < Config.memorySize) (v : Word) :
    (Memory.write m a v).wf := by
  unfold Memory.write
  split
  · exact Memory.wf_erase h a
  · next hv => exact Memory.wf_insert (Memory.wf_erase h a) ha hv (Memory.not_mem_erase m a)

theorem State.wf_memWrite {s : State} (h : s.mem.wf) (a v : Word) : (s.memWrite a v).mem.wf :=
  Memory.wf_write h a.isLt v

theorem State.wf_reset : State.reset.mem.wf := by decide

theorem State.memPlain_memWrite (s : State) (a b v : Word) :
    (s.memWrite a v).memPlain b = if b = a then v else s.memPlain b := by
  simp only [State.memPlain, State.memWrite_mem, Memory.read_write]
  by_cases h : b = a
  · simp [h]
  · have : ¬ b.toNat = a.toNat := fun e => h (BitVec.eq_of_toNat_eq e)
    simp [h, this]

@[simp] theorem State.memPlain_memWrite_self (s : State) (a v : Word) : (s.memWrite a v).memPlain a = v := by
  simp [State.memPlain_memWrite]

theorem State.memPlain_memWrite_ne (s : State) {a b : Word} (v : Word) (h : b ≠ a) :
    (s.memWrite a v).memPlain b = s.memPlain b := by
  simp [State.memPlain_memWrite, h]

end Sys2Proof.Machine
end

