-- ==== Sys2Proof/Laws/Ops.lean ====
section
/-! SUPPORT. One lemma per shared operation, saying once what it can do; later proofs cite these. -/

namespace Sys2Proof.Machine

variable (s : State)

/-! ### setcc and the result write -/

theorem condOf_cases (v : Word) : condOf v = Config.pos ∨ condOf v = Config.zro ∨ condOf v = Config.neg := by
  unfold condOf
  split
  · simp
  · split <;> simp

/-- The result write in normal form: the register, then COND from the value written. -/
@[simp] theorem State.writeResult_eq (dr : RegNum) (v : Word) :
    s.writeResult dr v = (s.setReg dr v).setCond (condOf v) := by
  simp [State.writeResult, State.setcc]

@[simp] theorem State.trapEntry_eq : s.trapEntry = s.setReg 7 s.pc := rfl

/-! ### Taking a fault, and holding -/

section
variable (code : FaultCode) (ir info : Word)

@[simp] theorem State.raise_regs : (s.raise code ir info).regs = s.regs := rfl
@[simp] theorem State.raise_reg (r : RegNum) : (s.raise code ir info).reg r = s.reg r := rfl
@[simp] theorem State.raise_pc : (s.raise code ir info).pc = s.pc := rfl
@[simp] theorem State.raise_cond : (s.raise code ir info).cond = s.cond := rfl
@[simp] theorem State.raise_status : (s.raise code ir info).status = .faulted := rfl
@[simp] theorem State.raise_fault : (s.raise code ir info).fault = ⟨code, s.pc - 1, ir, info⟩ := rfl
@[simp] theorem State.raise_mem : (s.raise code ir info).mem = s.mem := rfl
@[simp] theorem State.raise_memPlain (a : Word) : (s.raise code ir info).memPlain a = s.memPlain a := rfl
@[simp] theorem State.raise_inputExt : (s.raise code ir info).inputExt = s.inputExt := rfl
@[simp] theorem State.raise_input : (s.raise code ir info).input = s.input := rfl
@[simp] theorem State.raise_outAnswers : (s.raise code ir info).outAnswers = s.outAnswers := rfl
@[simp] theorem State.raise_trace : (s.raise code ir info).trace = s.trace := rfl

end

@[simp] theorem State.held_eq : s.held = (s.setPc (s.pc - 1)).setInput s.input.tail := rfl

/-! ### MemRead -/

theorem State.memRead_of_ne {a : Word} (h : a ≠ kbsr) : s.memRead a = .value (s.memPlain a) s := by
  simp [State.memRead, h]

@[simp] theorem State.memRead_kbsr : s.memRead kbsr = s.pollKeyboard := by
  simp [State.memRead]

section
variable {s}

theorem State.pollKeyboard_nil (h : s.input = []) :
    s.pollKeyboard = .value 0 ((s.log (.probe false)).memWrite kbsr 0) := by
  simp [State.pollKeyboard, h]

theorem State.pollKeyboard_wait {rest : List InAnswer} (h : s.input = .wait :: rest) :
    s.pollKeyboard = .value 0 (((s.setInput rest).log (.probe false)).memWrite kbsr 0) := by
  simp [State.pollKeyboard, h]

theorem State.pollKeyboard_byte {b : Byte} {rest : List InAnswer} (h : s.input = .byte b :: rest) :
    s.pollKeyboard = .value kbsrReady
      (((((s.setInput rest).log (.probe true)).log (.read b)).memWrite kbdr (ext16 s.inputExt b)).memWrite
        kbsr kbsrReady) := by
  simp [State.pollKeyboard, h]

theorem State.pollKeyboard_fail {rest : List InAnswer} (h : s.input = .fail :: rest) :
    s.pollKeyboard = .inputFailure ((s.setInput rest).log (.probe true)) := by
  simp [State.pollKeyboard, h]

/-- A poll that finds nothing, whether the host's answer is "nothing yet" or there is none. -/
theorem State.pollKeyboard_noKey (h : s.input = [] ∨ ∃ rest, s.input = .wait :: rest) :
    s.pollKeyboard = .value 0 (((s.setInput s.input.tail).log (.probe false)).memWrite kbsr 0) := by
  rcases h with h | ⟨rest, h⟩
  · have e : s.setInput s.input.tail = s := by
      cases s
      simp_all [State.setInput]
    rw [State.pollKeyboard_nil h, e]
  · rw [State.pollKeyboard_wait h, h, List.tail_cons]

end

/-- All a MemRead can do: a plain read; or a poll of the keyboard that finds nothing, a byte, or a failure. -/
theorem State.memRead_cases (a : Word) :
    (a ≠ kbsr ∧ s.memRead a = .value (s.memPlain a) s) ∨
    (a = kbsr ∧ (s.input = [] ∨ ∃ rest, s.input = .wait :: rest) ∧
      s.memRead a = .value 0 (((s.setInput s.input.tail).log (.probe false)).memWrite kbsr 0)) ∨
    (a = kbsr ∧ ∃ b rest, s.input = .byte b :: rest ∧
      s.memRead a = .value kbsrReady
        (((((s.setInput rest).log (.probe true)).log (.read b)).memWrite kbdr (ext16 s.inputExt b)).memWrite
          kbsr kbsrReady)) ∨
    (a = kbsr ∧ ∃ rest, s.input = .fail :: rest ∧
      s.memRead a = .inputFailure ((s.setInput rest).log (.probe true))) := by
  by_cases h : a = kbsr
  · subst h
    right
    rw [State.memRead_kbsr]
    match hi : s.input with
    | [] => exact .inl ⟨rfl, .inl rfl, hi ▸ State.pollKeyboard_noKey (.inl hi)⟩
    | .wait :: rest => exact .inl ⟨rfl, .inr ⟨rest, rfl⟩, hi ▸ State.pollKeyboard_noKey (.inr ⟨rest, hi⟩)⟩
    | .byte b :: rest => exact .inr (.inl ⟨rfl, b, rest, rfl, State.pollKeyboard_byte hi⟩)
    | .fail :: rest => exact .inr (.inr ⟨rfl, rest, rfl, State.pollKeyboard_fail hi⟩)
  · exact .inl ⟨h, State.memRead_of_ne s h⟩

/-! ### ReadByte -/

section
variable {s}

theorem State.readByte_byte {b : Byte} {rest : List InAnswer} (h : s.input = .byte b :: rest) :
    s.readByte = .byte b ((s.setInput rest).log (.read b)) := by
  simp [State.readByte, h]

theorem State.readByte_fail {rest : List InAnswer} (h : s.input = .fail :: rest) :
    s.readByte = .failed (s.setInput rest) := by
  simp [State.readByte, h]

theorem State.readByte_hold (h : s.input = [] ∨ ∃ rest, s.input = .wait :: rest) : s.readByte = .hold := by
  rcases h with h | ⟨rest, h⟩ <;> simp [State.readByte, h]

end

/-- All a ReadByte can do. -/
theorem State.readByte_cases :
    (∃ b rest, s.input = .byte b :: rest ∧ s.readByte = .byte b ((s.setInput rest).log (.read b))) ∨
    (∃ rest, s.input = .fail :: rest ∧ s.readByte = .failed (s.setInput rest)) ∨
    ((s.input = [] ∨ ∃ rest, s.input = .wait :: rest) ∧ s.readByte = .hold) := by
  match hi : s.input with
  | [] => exact .inr (.inr ⟨.inl rfl, State.readByte_hold (.inl hi)⟩)
  | .wait :: rest => exact .inr (.inr ⟨.inr ⟨rest, rfl⟩, State.readByte_hold (.inr ⟨rest, hi⟩)⟩)
  | .byte b :: rest => exact .inl ⟨b, rest, rfl, State.readByte_byte hi⟩
  | .fail :: rest => exact .inr (.inl ⟨rest, rfl, State.readByte_fail hi⟩)

@[simp] theorem Access.andThen_value (w : Word) (t : State) (ir : Word)
    (k : Word → State → Host.Outcome State Fault Refusal) : (Access.value w t).andThen ir k = k w t := rfl

@[simp] theorem Access.andThen_inputFailure (t : State) (ir : Word)
    (k : Word → State → Host.Outcome State Fault Refusal) :
    (Access.inputFailure t).andThen ir k = .next (t.raise .inputFailure ir kbsr) := rfl

end Sys2Proof.Machine
end

