-- ==== Sys2Proof/Laws/Output.lean ====
section
/-! SUPPORT. The output operations as ONE operation: emitting a list of events in turn. Every routine that writes
emits some list (its Writes, then a Flush); what the output device answers decides how far it gets. -/

namespace Sys2Proof.Machine

/-- Emit the events in turn, stopping at the first Fail. -/
def State.emitAll (s : State) : List Event → Output
  | [] => .done s
  | e :: es => (s.emit e).andThen (fun s' => s'.emitAll es)

/-- The state after `n` answers of the output device and the events `es`. -/
def State.afterOutput (s : State) (n : Nat) (es : List Event) : State :=
  { s with outAnswers := s.outAnswers.drop n, trace := s.trace ++ es }

section
variable (s : State) (n : Nat) (es : List Event)

@[simp] theorem State.afterOutput_regs : (s.afterOutput n es).regs = s.regs := rfl
@[simp] theorem State.afterOutput_reg (r : RegNum) : (s.afterOutput n es).reg r = s.reg r := rfl
@[simp] theorem State.afterOutput_pc : (s.afterOutput n es).pc = s.pc := rfl
@[simp] theorem State.afterOutput_cond : (s.afterOutput n es).cond = s.cond := rfl
@[simp] theorem State.afterOutput_status : (s.afterOutput n es).status = s.status := rfl
@[simp] theorem State.afterOutput_fault : (s.afterOutput n es).fault = s.fault := rfl
@[simp] theorem State.afterOutput_mem : (s.afterOutput n es).mem = s.mem := rfl
@[simp] theorem State.afterOutput_memPlain (a : Word) : (s.afterOutput n es).memPlain a = s.memPlain a := rfl
@[simp] theorem State.afterOutput_inputExt : (s.afterOutput n es).inputExt = s.inputExt := rfl
@[simp] theorem State.afterOutput_input : (s.afterOutput n es).input = s.input := rfl
@[simp] theorem State.afterOutput_outAnswers : (s.afterOutput n es).outAnswers = s.outAnswers.drop n := rfl
@[simp] theorem State.afterOutput_trace : (s.afterOutput n es).trace = s.trace ++ es := rfl

end

@[simp] theorem Output.andThen_done (s : State) (k : State → Output) : (Output.done s).andThen k = k s := rfl
@[simp] theorem Output.andThen_failed (s : State) (k : State → Output) : (Output.failed s).andThen k = .failed s := rfl
@[simp] theorem Output.andThen_endless (k : State → Output) : Output.endless.andThen k = .endless := rfl

theorem Output.andThen_assoc (o : Output) (j k : State → Output) :
    (o.andThen j).andThen k = o.andThen (fun s => (j s).andThen k) := by
  cases o <;> rfl

@[simp] theorem Output.conclude_done (s : State) (ir v : Word) (k : State → Host.Outcome State Fault Refusal) :
    (Output.done s).conclude ir v k = k s := rfl
@[simp] theorem Output.conclude_failed (s : State) (ir v : Word) (k : State → Host.Outcome State Fault Refusal) :
    (Output.failed s).conclude ir v k = .next (s.raise .outputFailure ir v) := rfl
@[simp] theorem Output.conclude_endless (ir v : Word) (k : State → Host.Outcome State Fault Refusal) :
    Output.endless.conclude ir v k = .fault .diverge := rfl

theorem State.emitAll_append (s : State) (es fs : List Event) :
    s.emitAll (es ++ fs) = (s.emitAll es).andThen (fun s' => s'.emitAll fs) := by
  induction es generalizing s with
  | nil => rfl
  | cons e es ih => simp only [List.cons_append, State.emitAll, Output.andThen_assoc, ih]

theorem State.flush_eq (s : State) : s.flush = s.emitAll [.flush] := by
  simp only [State.flush, State.emitAll]
  cases s.emit .flush <;> rfl

theorem State.outByte_eq (s : State) (b : Byte) : s.outByte b = s.emitAll [.write b] := by
  simp only [State.outByte, State.emitAll]
  cases s.emit (.write b) <;> rfl

theorem State.outBytes_eq (s : State) (bs : List Byte) : s.outBytes bs = s.emitAll (bs.map Event.write) := by
  induction bs generalizing s with
  | nil => rfl
  | cons b bs ih => simp only [State.outBytes, State.outByte, List.map_cons, State.emitAll, ih]

/-- Where the device answers no Fail, every event is recorded. -/
theorem State.emitAll_done {s : State} {es : List Event} (h : ∀ a ∈ s.outAnswers.take es.length, a = .ok) :
    s.emitAll es = .done (s.afterOutput es.length es) := by
  induction es generalizing s with
  | nil => simp [State.emitAll, State.afterOutput]
  | cons e es ih =>
    match ho : s.outAnswers with
    | [] =>
      have : s.emit e = .done (s.log e) := by simp [State.emit, ho]
      simp only [State.emitAll, this, Output.andThen_done]
      rw [ih (by simp [ho])]
      simp [State.afterOutput, State.log, ho]
    | .ok :: rest =>
      have : s.emit e = .done ((s.setOutAnswers rest).log e) := by simp [State.emit, ho]
      simp only [State.emitAll, this, Output.andThen_done]
      rw [ih (fun a ha => h a (by simp [ho]; exact .inr ha))]
      simp [State.afterOutput, State.log, State.setOutAnswers, ho]
    | .fail :: rest => exact absurd (h .fail (by simp [ho])) (by decide)

/-- Where the device's answer number `k` is its first Fail, the `k` events before it are recorded and nothing more. -/
theorem State.emitAll_failed {s : State} {es : List Event} {k : Nat} (hk : k < es.length)
    (h : ∀ a ∈ s.outAnswers.take k, a = .ok) (hf : s.outAnswers[k]? = some .fail) :
    s.emitAll es = .failed (s.afterOutput (k + 1) (es.take k)) := by
  induction es generalizing s k with
  | nil => simp at hk
  | cons e es ih =>
    match ho : s.outAnswers with
    | [] => simp [ho] at hf
    | .fail :: rest =>
      cases k with
      | zero =>
        have : s.emit e = .failed (s.setOutAnswers rest) := by simp [State.emit, ho]
        simp [State.emitAll, this, State.afterOutput, State.setOutAnswers, ho]
      | succ k => exact absurd (h .fail (by simp [ho])) (by decide)
    | .ok :: rest =>
      cases k with
      | zero => simp [ho] at hf
      | succ k =>
        have : s.emit e = .done ((s.setOutAnswers rest).log e) := by simp [State.emit, ho]
        simp only [State.emitAll, this, Output.andThen_done]
        rw [ih (k := k) (by simpa using hk) (fun a ha => h a (by simp [ho]; exact .inr ha)) (by simpa [ho] using hf)]
        simp [State.afterOutput, State.log, State.setOutAnswers, ho]

/-- All that emitting can do: every event is recorded, or those before the first Fail are. -/
theorem State.emitAll_cases (s : State) (es : List Event) :
    ((∀ a ∈ s.outAnswers.take es.length, a = .ok) ∧ s.emitAll es = .done (s.afterOutput es.length es)) ∨
    ∃ k < es.length, (∀ a ∈ s.outAnswers.take k, a = .ok) ∧ s.outAnswers[k]? = some .fail ∧
      s.emitAll es = .failed (s.afterOutput (k + 1) (es.take k)) := by
  by_cases h : ∀ a ∈ s.outAnswers.take es.length, a = .ok
  · exact .inl ⟨h, State.emitAll_done h⟩
  · right
    suffices H : ∀ (l : List OutAnswer) (n : Nat), (¬ ∀ a ∈ l.take n, a = .ok) →
        ∃ k < n, (∀ a ∈ l.take k, a = .ok) ∧ l[k]? = some .fail by
      obtain ⟨k, hk, h1, h2⟩ := H _ _ h
      exact ⟨k, hk, h1, h2, State.emitAll_failed hk h1 h2⟩
    intro l
    induction l with
    | nil => intro n hn; simp at hn
    | cons a l ih =>
      intro n hn
      cases n with
      | zero => simp at hn
      | succ n =>
        cases a with
        | fail => exact ⟨0, by omega, by simp, rfl⟩
        | ok =>
          obtain ⟨k, hk, h1, h2⟩ := ih n (by simpa using hn)
          exact ⟨k + 1, by omega, by simpa using h1, by simpa using h2⟩

/-- The events a string routine's loop writes: `n` words from `p` on. -/
def State.stringEvents (s : State) (bytesOf : Word → List Byte) : Nat → Word → List Event
  | 0, _ => []
  | n + 1, p => (bytesOf (s.memPlain p)).map .write ++ s.stringEvents bytesOf n (p + 1)

theorem State.stringEvents_afterOutput (s : State) (k : Nat) (es : List Event) (f : Word → List Byte) (n : Nat)
    (p : Word) : (s.afterOutput k es).stringEvents f n p = s.stringEvents f n p := by
  induction n generalizing p with
  | zero => rfl
  | succ n ih => simp [State.stringEvents, ih]

theorem offset_succ (p : Word) (k : Nat) : p + 1 + BitVec.ofNat 16 k = p + BitVec.ofNat 16 (k + 1) := by
  rw [BitVec.add_assoc]
  congr 1
  apply BitVec.eq_of_toNat_eq
  simp [BitVec.toNat_add, BitVec.toNat_ofNat, Nat.add_comm]

/-- The loop over words of which the first `n` are not 0x0000: their events, then the loop from the word after. -/
theorem State.outString_split (s : State) (f : Word → List Byte) {n fuel : Nat} (p : Word) (hn : n ≤ fuel)
    (hnz : ∀ k < n, s.memPlain (p + BitVec.ofNat 16 k) ≠ 0) :
    State.outString f fuel p s =
      (s.emitAll (s.stringEvents f n p)).andThen (State.outString f (fuel - n) (p + BitVec.ofNat 16 n)) := by
  induction n generalizing s fuel p with
  | zero => simp [State.stringEvents, State.emitAll]
  | succ n ih =>
    obtain ⟨fuel, rfl⟩ : ∃ m, fuel = m + 1 := ⟨fuel - 1, by omega⟩
    have h0 : s.memPlain p ≠ 0 := by simpa using hnz 0 (by omega)
    simp only [State.outString, h0, if_false, State.outBytes_eq, State.stringEvents, State.emitAll_append]
    rcases State.emitAll_cases s ((f (s.memPlain p)).map .write) with ⟨-, e⟩ | ⟨k, -, -, -, e⟩
    · rw [e, Output.andThen_done, Output.andThen_done,
        ih (s.afterOutput _ _) (p + 1) (by omega)
          (fun k hk => by rw [State.afterOutput_memPlain, offset_succ]; exact hnz (k + 1) (by omega)),
        State.stringEvents_afterOutput, offset_succ, Nat.add_sub_add_right]
    · rw [e, Output.andThen_failed, Output.andThen_failed, Output.andThen_failed]

/-- A string whose first 0x0000 word is `n` words from `p`: its loop emits its events. -/
theorem State.outString_terminated (s : State) (f : Word → List Byte) {n fuel : Nat} (p : Word) (hn : n < fuel)
    (hnz : ∀ k < n, s.memPlain (p + BitVec.ofNat 16 k) ≠ 0) (hz : s.memPlain (p + BitVec.ofNat 16 n) = 0) :
    State.outString f fuel p s = s.emitAll (s.stringEvents f n p) := by
  obtain ⟨m, hm⟩ : ∃ m, fuel - n = m + 1 := ⟨fuel - n - 1, by omega⟩
  rw [State.outString_split s f p hn.le hnz, hm]
  rcases State.emitAll_cases s (s.stringEvents f n p) with ⟨-, e⟩ | ⟨k, -, -, -, e⟩
  · rw [e, Output.andThen_done]
    simp [State.outString, hz]
  · rw [e, Output.andThen_failed]

/-- A Fail among the Writes of the first `n` words, none of them 0x0000, ends the loop there, whatever follows. -/
theorem State.outString_failed (s : State) (f : Word → List Byte) {n fuel k : Nat} (p : Word) (hn : n ≤ fuel)
    (hnz : ∀ j < n, s.memPlain (p + BitVec.ofNat 16 j) ≠ 0) (hk : k < (s.stringEvents f n p).length)
    (ho : ∀ a ∈ s.outAnswers.take k, a = .ok) (hf : s.outAnswers[k]? = some .fail) :
    State.outString f fuel p s = .failed (s.afterOutput (k + 1) ((s.stringEvents f n p).take k)) := by
  rw [State.outString_split s f p hn hnz, State.emitAll_failed hk ho hf, Output.andThen_failed]

theorem State.stringEvents_setReg (s : State) (r : RegNum) (v : Word) (f : Word → List Byte) (n : Nat) (p : Word) :
    (s.setReg r v).stringEvents f n p = s.stringEvents f n p := by
  induction n generalizing p with
  | zero => rfl
  | succ n ih => simp [State.stringEvents, ih]

/-- A string's events as one map over the offsets of its words. -/
theorem State.stringEvents_eq (s : State) (f : Word → List Byte) (n : Nat) (p : Word) :
    s.stringEvents f n p =
      (List.range n).flatMap fun k => (f (s.memPlain (p + BitVec.ofNat 16 k))).map .write := by
  induction n generalizing p with
  | zero => rfl
  | succ n ih =>
    rw [State.stringEvents, ih, List.range_succ_eq_map]
    simp only [List.flatMap_cons, List.flatMap_map]
    congr 2
    · simp
    · funext k
      congr 3
      rw [BitVec.add_assoc]
      congr 1
      apply BitVec.eq_of_toNat_eq
      simp [BitVec.toNat_add, BitVec.toNat_ofNat, Nat.add_comm]

theorem State.afterOutput_afterOutput (s : State) (m n : Nat) (es fs : List Event) :
    (s.afterOutput m es).afterOutput n fs = s.afterOutput (m + n) (es ++ fs) := by
  simp [State.afterOutput, List.drop_drop]

theorem State.afterOutput_zero (s : State) : s.afterOutput 0 [] = s := by
  simp [State.afterOutput]

/-- Whatever the string, its loop ends after some Writes, or never ends; where it ends well it has met a 0x0000 word. -/
theorem State.outString_cases (s : State) (f : Word → List Byte) (fuel : Nat) (p : Word) :
    (∃ (n : Nat) (bs : List Byte), (∃ a, s.memPlain a = 0) ∧ State.outString f fuel p s = .done (s.afterOutput n (bs.map Event.write))) ∨
    (∃ (n : Nat) (bs : List Byte), State.outString f fuel p s = .failed (s.afterOutput n (bs.map Event.write))) ∨
    State.outString f fuel p s = .endless := by
  induction fuel generalizing s p with
  | zero => exact .inr (.inr rfl)
  | succ fuel ih =>
    simp only [State.outString]
    split
    · next h => exact .inl ⟨0, [], ⟨p, h⟩, by rw [List.map_nil, State.afterOutput_zero]⟩
    · rw [State.outBytes_eq]
      rcases State.emitAll_cases s ((f (s.memPlain p)).map .write) with ⟨-, e⟩ | ⟨k, -, -, -, e⟩
      · rw [e, Output.andThen_done]
        rcases ih (s.afterOutput _ _) (p + 1) with ⟨n, bs, ⟨a, ha⟩, e'⟩ | ⟨n, bs, e'⟩ | e'
        · exact .inl ⟨_, f (s.memPlain p) ++ bs, ⟨a, ha⟩, by rw [e', State.afterOutput_afterOutput, List.map_append]⟩
        · exact .inr (.inl ⟨_, f (s.memPlain p) ++ bs, by rw [e', State.afterOutput_afterOutput, List.map_append]⟩)
        · exact .inr (.inr e')
      · exact .inr (.inl ⟨_, (f (s.memPlain p)).take k, by rw [e, Output.andThen_failed, List.map_take]⟩)

/-- A loop that does not end has met no 0x0000 word among the words it was given to look at. -/
theorem State.outString_endless (s : State) (f : Word → List Byte) (fuel : Nat) (p : Word)
    (h : State.outString f fuel p s = .endless) : ∀ k < fuel, s.memPlain (p + BitVec.ofNat 16 k) ≠ 0 := by
  intro k hk hz
  classical
  let found := Nat.find (p := fun k => s.memPlain (p + BitVec.ofNat 16 k) = 0) ⟨k, hz⟩
  have hle : found ≤ k := Nat.find_min' _ hz
  rw [State.outString_terminated s f (n := found) (fuel := fuel) p (by omega) (fun j hj => Nat.find_min _ hj)
    (Nat.find_spec (p := fun k => s.memPlain (p + BitVec.ofNat 16 k) = 0) ⟨k, hz⟩)] at h
  rcases State.emitAll_cases s (s.stringEvents f found p) with ⟨-, e⟩ | ⟨k, -, -, -, e⟩ <;> rw [e] at h <;> cases h

/-- Where none of the words the loop may look at is 0x0000 and none of their Writes fails, the loop has no end. -/
theorem State.outString_of_no_end (s : State) (f : Word → List Byte) (fuel : Nat) (p : Word)
    (hz : ∀ a, s.memPlain a ≠ 0) (ho : ∀ a ∈ s.outAnswers.take (s.stringEvents f fuel p).length, a = .ok) :
    State.outString f fuel p s = .endless := by
  rw [State.outString_split s f p (le_refl fuel) (fun k _ => hz _), State.emitAll_done ho, Nat.sub_self,
    Output.andThen_done]
  rfl

end Sys2Proof.Machine
end

