-- ==== Sys2Proof/Laws/Exec.lean ====
section
/-! SUPPORT. What the shared operations over a MemRead or an output come to, and what the meanings built on them can
answer: one lemma each, which later proofs cite instead of unfolding. -/

namespace Sys2Proof.Machine

variable (s : State)

/-- `flush` as a function, for the places where it is a continuation. -/
theorem State.flush_fun : State.flush = fun s' => s'.emitAll [.flush] := funext State.flush_eq

/-! ### After a MemRead -/

/-- All a load can do: DR and COND from the word read, or the fault of a failed read. -/
theorem State.loadFrom_cases (dr : RegNum) (a ir : Word) :
    (∃ w u, s.memRead a = .value w u ∧ s.loadFrom dr a ir = .next ((u.setReg dr w).setCond (condOf w))) ∨
    (∃ u, s.memRead a = .inputFailure u ∧ s.loadFrom dr a ir = .next (u.raise .inputFailure ir kbsr)) := by
  unfold State.loadFrom
  cases h : s.memRead a with
  | value w u => exact .inl ⟨w, u, rfl, by simp⟩
  | inputFailure u => exact .inr ⟨u, rfl, rfl⟩

theorem execLd_cases (dr : RegNum) (off : BitVec 9) :
    (∃ w u, s.memRead (s.pcRel9 off) = .value w u ∧
      execLd dr off s = .next ((u.setReg dr w).setCond (condOf w))) ∨
    (∃ u, s.memRead (s.pcRel9 off) = .inputFailure u ∧
      execLd dr off s = .next (u.raise .inputFailure (encode (.ld dr off)) kbsr)) :=
  s.loadFrom_cases dr _ _

theorem execLdr_cases (dr base : RegNum) (off : BitVec 6) :
    (∃ w u, s.memRead (s.baseOff6 base off) = .value w u ∧
      execLdr dr base off s = .next ((u.setReg dr w).setCond (condOf w))) ∨
    (∃ u, s.memRead (s.baseOff6 base off) = .inputFailure u ∧
      execLdr dr base off s = .next (u.raise .inputFailure (encode (.ldr dr base off)) kbsr)) :=
  s.loadFrom_cases dr _ _

theorem execLdi_cases (dr : RegNum) (off : BitVec 9) :
    (∃ p u w v, s.memRead (s.pcRel9 off) = .value p u ∧ u.memRead p = .value w v ∧
      execLdi dr off s = .next ((v.setReg dr w).setCond (condOf w))) ∨
    (∃ p u v, s.memRead (s.pcRel9 off) = .value p u ∧ u.memRead p = .inputFailure v ∧
      execLdi dr off s = .next (v.raise .inputFailure (encode (.ldi dr off)) kbsr)) ∨
    (∃ u, s.memRead (s.pcRel9 off) = .inputFailure u ∧
      execLdi dr off s = .next (u.raise .inputFailure (encode (.ldi dr off)) kbsr)) := by
  unfold execLdi
  cases h : s.memRead (s.pcRel9 off) with
  | value p u =>
    rw [Access.andThen_value]
    rcases u.loadFrom_cases dr p (encode (.ldi dr off)) with ⟨w, v, hv, e⟩ | ⟨v, hv, e⟩
    · exact .inl ⟨p, u, w, v, rfl, hv, e⟩
    · exact .inr (.inl ⟨p, u, v, rfl, hv, e⟩)
  | inputFailure u => exact .inr (.inr ⟨u, rfl, rfl⟩)

theorem execSti_cases (sr : RegNum) (off : BitVec 9) :
    (∃ p u, s.memRead (s.pcRel9 off) = .value p u ∧ execSti sr off s = .next (u.memWrite p (u.reg sr))) ∨
    (∃ u, s.memRead (s.pcRel9 off) = .inputFailure u ∧
      execSti sr off s = .next (u.raise .inputFailure (encode (.sti sr off)) kbsr)) := by
  unfold execSti
  cases h : s.memRead (s.pcRel9 off) with
  | value p u => exact .inl ⟨p, u, rfl, rfl⟩
  | inputFailure u => exact .inr ⟨u, rfl, rfl⟩

/-! ### After output -/

/-- All that concluding a list of output events can do. -/
theorem State.emitAll_conclude_cases (es : List Event) (ir v : Word)
    (k : State → Host.Outcome State Fault Refusal) :
    ((∀ a ∈ s.outAnswers.take es.length, a = .ok) ∧ (s.emitAll es).conclude ir v k = k (s.afterOutput es.length es)) ∨
    (∃ n < es.length, (∀ a ∈ s.outAnswers.take n, a = .ok) ∧ s.outAnswers[n]? = some .fail ∧
      (s.emitAll es).conclude ir v k = .next ((s.afterOutput (n + 1) (es.take n)).raise .outputFailure ir v)) := by
  rcases s.emitAll_cases es with ⟨h, e⟩ | ⟨n, hn, h, hf, e⟩
  · exact .inl ⟨h, by rw [e, Output.conclude_done]⟩
  · exact .inr ⟨n, hn, h, hf, by rw [e, Output.conclude_failed]⟩

theorem execTrapOut_eq (x : BitVec 4) :
    execTrapOut x s = (s.trapEntry.emitAll [.write (low8 (s.trapEntry.reg 0)), .flush]).conclude
      (encode (.trapOut x)) 0x0021 .next := by
  unfold execTrapOut
  rw [State.outByte_eq, State.flush_fun, ← State.emitAll_append]
  rfl

theorem execTrapHalt_eq (x : BitVec 4) :
    execTrapHalt x s = (s.trapEntry.emitAll (haltLine.map .write ++ [.flush])).conclude
      (encode (.trapHalt x)) 0x0025 fun s' => .next (s'.setStatus .halted) := by
  unfold execTrapHalt
  rw [State.outBytes_eq, State.flush_fun, ← State.emitAll_append]

/-- A string routine whose string ends: the Writes of its words, then the Flush. -/
theorem State.outString_flush_eq (f : Word → List Byte) {n : Nat} (p : Word) (hn : n < Config.memorySize)
    (hnz : ∀ k < n, s.memPlain (p + BitVec.ofNat 16 k) ≠ 0) (hz : s.memPlain (p + BitVec.ofNat 16 n) = 0) :
    (State.outString f Config.memorySize p s).andThen State.flush =
      s.emitAll (((List.range n).flatMap fun k => (f (s.memPlain (p + BitVec.ofNat 16 k))).map .write) ++ [.flush]) := by
  rw [State.outString_terminated s f p hn hnz hz, State.flush_fun, ← State.emitAll_append, State.stringEvents_eq]

/-- All that a string routine can do: it writes, flushes and completes, the string having an end; it writes and
faults; or it has no end. -/
theorem State.outString_conclude_cases (f : Word → List Byte) (p ir v : Word) :
    (∃ (n : Nat) (bs : List Byte), (∃ a, s.memPlain a = 0) ∧
      ((State.outString f Config.memorySize p s).andThen State.flush).conclude ir v .next =
        .next (s.afterOutput n (bs.map .write ++ [.flush]))) ∨
    (∃ (n : Nat) (bs : List Byte),
      ((State.outString f Config.memorySize p s).andThen State.flush).conclude ir v .next =
        .next ((s.afterOutput n (bs.map .write)).raise .outputFailure ir v)) ∨
    ((∀ a, s.memPlain a ≠ 0) ∧
      ((State.outString f Config.memorySize p s).andThen State.flush).conclude ir v .next = .fault .diverge) := by
  rcases s.outString_cases f Config.memorySize p with ⟨n, bs, hz, e⟩ | ⟨n, bs, e⟩ | e
  · rw [e, Output.andThen_done, State.flush_eq]
    rcases State.emitAll_conclude_cases (s.afterOutput n (bs.map .write)) [.flush] ir v .next with
      ⟨-, e⟩ | ⟨k, hk, -, -, e⟩
    · exact .inl ⟨_, bs, hz, by rw [e, State.afterOutput_afterOutput]⟩
    · obtain rfl : k = 0 := by simpa using hk
      exact .inr (.inl ⟨_, bs, by rw [e, State.afterOutput_afterOutput, List.take_zero, List.append_nil]⟩)
  · exact .inr (.inl ⟨n, bs, by rw [e]; rfl⟩)
  · refine .inr (.inr ⟨fun a ha => ?_, by rw [e]; rfl⟩)
    refine State.outString_endless s f _ p e (a - p).toNat (a - p).isLt ?_
    rwa [BitVec.ofNat_toNat, BitVec.setWidth_eq, BitVec.add_comm, BitVec.sub_add_cancel]

/-! ### The routines that read -/

/-- All that GETC can do: a byte, a failure, or a Hold. -/
theorem execTrapGetc_cases (x : BitVec 4) :
    (∃ b rest, s.input = .byte b :: rest ∧ execTrapGetc x s =
      .next (((((s.setReg 7 s.pc).setInput rest).log (.read b)).setReg 0 (ext16 s.inputExt b)).setCond
        (condOf (ext16 s.inputExt b)))) ∨
    (∃ rest, s.input = .fail :: rest ∧ execTrapGetc x s =
      .next (((s.setReg 7 s.pc).setInput rest).raise .inputFailure (encode (.trapGetc x)) 0x0020)) ∨
    ((s.input = [] ∨ ∃ rest, s.input = .wait :: rest) ∧ execTrapGetc x s = .next s.held) := by
  unfold execTrapGetc
  rcases s.trapEntry.readByte_cases with ⟨b, rest, hi, e⟩ | ⟨rest, hi, e⟩ | ⟨hi, e⟩
  · exact .inl ⟨b, rest, hi, by rw [e]; simp⟩
  · exact .inr (.inl ⟨rest, hi, by rw [e]; rfl⟩)
  · exact .inr (.inr ⟨hi, by rw [e]⟩)

/-- All that IN can do: the prompt and its echo with a byte; an output failure in the prompt or in the echo; an input
failure; or a Hold. -/
theorem execTrapIn_cases (x : BitVec 4) :
    (∃ b rest, s.input = .byte b :: rest ∧ execTrapIn x s =
      .next (((((((s.setReg 7 s.pc).afterOutput 19 (inPrompt.map .write)).setInput rest).log (.read b)).afterOutput 2
        [.write b, .flush]).setReg 0 (ext16 s.inputExt b)).setCond (condOf (ext16 s.inputExt b)))) ∨
    (∃ n < 19, execTrapIn x s =
      .next (((s.setReg 7 s.pc).afterOutput (n + 1) ((inPrompt.map .write).take n)).raise .outputFailure
        (encode (.trapIn x)) 0x0023)) ∨
    (∃ b rest, ∃ n < 2, s.input = .byte b :: rest ∧ execTrapIn x s =
      .next ((((((s.setReg 7 s.pc).afterOutput 19 (inPrompt.map .write)).setInput rest).log (.read b)).afterOutput (n + 1)
        ([Event.write b, .flush].take n)).raise .outputFailure (encode (.trapIn x)) 0x0023)) ∨
    (∃ rest, s.input = .fail :: rest ∧ execTrapIn x s =
      .next ((((s.setReg 7 s.pc).afterOutput 19 (inPrompt.map .write)).setInput rest).raise .inputFailure
        (encode (.trapIn x)) 0x0023)) ∨
    ((s.input = [] ∨ ∃ rest, s.input = .wait :: rest) ∧ execTrapIn x s = .next s.held) := by
  unfold execTrapIn
  rw [State.outBytes_eq, State.trapEntry_eq]
  rcases State.emitAll_conclude_cases (s.setReg 7 s.pc) (inPrompt.map .write) (encode (.trapIn x)) 0x0023 _ with
    ⟨-, e⟩ | ⟨n, hn, -, -, e⟩
  · rw [e]
    rcases ((s.setReg 7 s.pc).afterOutput 19 (inPrompt.map .write)).readByte_cases with
      ⟨b, rest, hi, e⟩ | ⟨rest, hi, e⟩ | ⟨hi, e⟩
    · simp only [show (List.map Event.write inPrompt).length = 19 from rfl, e]
      rw [State.outByte_eq, State.flush_fun, ← State.emitAll_append]
      rcases State.emitAll_conclude_cases
        ((((s.setReg 7 s.pc).afterOutput 19 (inPrompt.map .write)).setInput rest).log (.read b))
        ([.write b] ++ [.flush]) (encode (.trapIn x)) 0x0023 _ with ⟨-, e⟩ | ⟨n, hn, -, -, e⟩
      · refine .inl ⟨b, rest, hi, ?_⟩
        rw [e]
        simp
      · exact .inr (.inr (.inl ⟨b, rest, n, hn, hi, e⟩))
    · simp only [show (List.map Event.write inPrompt).length = 19 from rfl, e]
      exact .inr (.inr (.inr (.inl ⟨rest, hi, rfl⟩)))
    · simp only [show (List.map Event.write inPrompt).length = 19 from rfl, e]
      exact .inr (.inr (.inr (.inr ⟨hi, trivial⟩)))
  · exact .inr (.inl ⟨n, hn, e⟩)

/-! ### The whole step -/

/-- All a step can be: none of a stopped block; the decoded instruction after the fetch; or the fault of the fetch. -/
theorem step_cases :
    (s.status = .halted ∧ step s = .fault .halted) ∨ (s.status = .faulted ∧ step s = .fault .faulted) ∨
    (s.status = .running ∧ ∃ w u, s.fetch = .value w u ∧ step s = exec (decode w) u) ∨
    (s.status = .running ∧ ∃ u, s.fetch = .inputFailure u ∧ step s = .next u.fetchFailed) := by
  unfold step
  cases hs : s.status with
  | halted => simp
  | faulted => simp
  | running =>
    cases hf : s.fetch with
    | value w u => simp
    | inputFailure u => simp

end Sys2Proof.Machine
end

