-- ==== Sys2Proof/Laws/PerInstr.lean ====
section
/-! SUPPORT. Statements about every instruction as syntax, one lemma per constructor.

TableRow: an instruction's word carries the fixed bits of its row of spec/opcode_table.json (word AND mask = match). -/

namespace Sys2Proof.Laws.TableRow

/-- The encoder agrees with the opcode table on the fixed bits of the instruction's row. -/
def Statement (i : Instr) : Prop := encode i &&& i.tableRow.1 = i.tableRow.2

/-- A word AND a mask is decided bit by bit. -/
theorem and_mask_eq {w mask value : Word}
    (h : ∀ i, i < 16 → (w.getLsbD i && mask.getLsbD i) = value.getLsbD i) : w &&& mask = value :=
  BitVec.eq_of_getLsbD_eq fun i hi => by rw [BitVec.getLsbD_and, h i hi]

theorem br (c : BitVec 3) (off : BitVec 9) : Statement (.br c off) :=
  and_mask_eq fun i hi => by
    interval_cases i <;> simp [encode, place, Instr.tableRow]

theorem add (d : RegNum) (a : RegNum) (b : RegNum) (x : BitVec 2) : Statement (.add d a b x) :=
  and_mask_eq fun i hi => by
    interval_cases i <;> simp [encode, place, Instr.tableRow]

theorem addImm (d : RegNum) (a : RegNum) (i : BitVec 5) : Statement (.addImm d a i) :=
  and_mask_eq fun i hi => by
    interval_cases i <;> simp [encode, place, Instr.tableRow]

theorem ld (d : RegNum) (off : BitVec 9) : Statement (.ld d off) :=
  and_mask_eq fun i hi => by
    interval_cases i <;> simp [encode, place, Instr.tableRow]

theorem st (d : RegNum) (off : BitVec 9) : Statement (.st d off) :=
  and_mask_eq fun i hi => by
    interval_cases i <;> simp [encode, place, Instr.tableRow]

theorem jsr (off : BitVec 11) : Statement (.jsr off) :=
  and_mask_eq fun i hi => by
    interval_cases i <;> simp [encode, place, Instr.tableRow]

theorem jsrr (b : RegNum) (h : BitVec 2) (l : BitVec 6) : Statement (.jsrr b h l) :=
  and_mask_eq fun i hi => by
    interval_cases i <;> simp [encode, place, Instr.tableRow]

theorem and (d : RegNum) (a : RegNum) (b : RegNum) (x : BitVec 2) : Statement (.and d a b x) :=
  and_mask_eq fun i hi => by
    interval_cases i <;> simp [encode, place, Instr.tableRow]

theorem andImm (d : RegNum) (a : RegNum) (i : BitVec 5) : Statement (.andImm d a i) :=
  and_mask_eq fun i hi => by
    interval_cases i <;> simp [encode, place, Instr.tableRow]

theorem ldr (d : RegNum) (b : RegNum) (o : BitVec 6) : Statement (.ldr d b o) :=
  and_mask_eq fun i hi => by
    interval_cases i <;> simp [encode, place, Instr.tableRow]

theorem str (d : RegNum) (b : RegNum) (o : BitVec 6) : Statement (.str d b o) :=
  and_mask_eq fun i hi => by
    interval_cases i <;> simp [encode, place, Instr.tableRow]

theorem rti (x : BitVec 12) : Statement (.rti x) :=
  and_mask_eq fun i hi => by
    interval_cases i <;> simp [encode, place, Instr.tableRow]

theorem not (d : RegNum) (a : RegNum) (x : BitVec 6) : Statement (.not d a x) :=
  and_mask_eq fun i hi => by
    interval_cases i <;> simp [encode, place, Instr.tableRow]

theorem ldi (d : RegNum) (off : BitVec 9) : Statement (.ldi d off) :=
  and_mask_eq fun i hi => by
    interval_cases i <;> simp [encode, place, Instr.tableRow]

theorem sti (d : RegNum) (off : BitVec 9) : Statement (.sti d off) :=
  and_mask_eq fun i hi => by
    interval_cases i <;> simp [encode, place, Instr.tableRow]

theorem jmp (b : RegNum) (h : BitVec 3) (l : BitVec 6) : Statement (.jmp b h l) :=
  and_mask_eq fun i hi => by
    interval_cases i <;> simp [encode, place, Instr.tableRow]

theorem ret (h : BitVec 3) (l : BitVec 6) : Statement (.ret h l) :=
  and_mask_eq fun i hi => by
    interval_cases i <;> simp [encode, place, Instr.tableRow]

theorem reserved (x : BitVec 12) : Statement (.reserved x) :=
  and_mask_eq fun i hi => by
    interval_cases i <;> simp [encode, place, Instr.tableRow]

theorem lea (d : RegNum) (off : BitVec 9) : Statement (.lea d off) :=
  and_mask_eq fun i hi => by
    interval_cases i <;> simp [encode, place, Instr.tableRow]

theorem trapGetc (x : BitVec 4) : Statement (.trapGetc x) :=
  and_mask_eq fun i hi => by
    interval_cases i <;> simp [encode, place, Instr.tableRow]

theorem trapOut (x : BitVec 4) : Statement (.trapOut x) :=
  and_mask_eq fun i hi => by
    interval_cases i <;> simp [encode, place, Instr.tableRow]

theorem trapPuts (x : BitVec 4) : Statement (.trapPuts x) :=
  and_mask_eq fun i hi => by
    interval_cases i <;> simp [encode, place, Instr.tableRow]

theorem trapIn (x : BitVec 4) : Statement (.trapIn x) :=
  and_mask_eq fun i hi => by
    interval_cases i <;> simp [encode, place, Instr.tableRow]

theorem trapPutsp (x : BitVec 4) : Statement (.trapPutsp x) :=
  and_mask_eq fun i hi => by
    interval_cases i <;> simp [encode, place, Instr.tableRow]

theorem trapHalt (x : BitVec 4) : Statement (.trapHalt x) :=
  and_mask_eq fun i hi => by
    interval_cases i <;> simp [encode, place, Instr.tableRow]

theorem trapUnknown (x : BitVec 4) (v : BitVec 8) : Statement (.trapUnknown x v) :=
  and_mask_eq fun i hi => by
    interval_cases i <;> simp [encode, place, Instr.tableRow]

end Sys2Proof.Laws.TableRow
end

