-- ==== Sys2Proof/Tests/Slice0.lean ====
section
/-! SUPPORT. The model's own tests. Every expected value is from spec/95_test_vectors.md (the vector's id is in the
comment), each about ONE step. Words are decoded by tests written out from the formats of spec/30_encoding.md R82. -/

namespace Sys2Proof.Tests

open Sys2Proof.Machine

/-- The reset state with the word `w` at 0x3000. -/
def start (w : Word) : State := State.reset.withFetchWord 16 w.toNat

/-- What `f` reads from the next state, where there is one. -/
def result {α : Type} (o : Host.Outcome State Fault Refusal) (f : State → α) : Option α :=
  match o with
  | .next s => some (f s)
  | .fault _ => none
  | .refused _ => none

/-- The fault a step stops with. -/
def stop (o : Host.Outcome State Fault Refusal) : Option Fault :=
  match o with
  | .next _ => none
  | .fault f => some f
  | .refused _ => none

/-! ### Well-formedness: each check refuses an ill-formed term -/

theorem test_wellFormed_refuses_jmp_r7 : (Instr.jmp 7 0 0).wellFormed = false := by decide
theorem test_wellFormed_refuses_known_vector_low : (Instr.trapUnknown 0 0x20).wellFormed = false := by decide
theorem test_wellFormed_refuses_known_vector_high : (Instr.trapUnknown 0 0x25).wellFormed = false := by decide
theorem test_wellFormed_takes_neighbours :
    (Instr.jmp 6 7 63).wellFormed ∧ (Instr.trapUnknown 15 0x1F).wellFormed ∧ (Instr.trapUnknown 0 0x26).wellFormed := by
  decide

/-! ### Decoding: the words written out bit by bit from R82 -/

theorem test_decode_br : decode 0b0000_101_000010000 = .br 0b101 16 := by decide
theorem test_decode_add : decode 0b0001_001_010_0_11_011 = .add 1 2 3 0b11 := by decide
theorem test_decode_addImm : decode 0b0001_001_010_1_11101 = .addImm 1 2 0b11101 := by decide
theorem test_decode_ld : decode 0b0010_111_100000001 = .ld 7 0x101 := by decide
theorem test_decode_st : decode 0b0011_011_111111111 = .st 3 0x1FF := by decide
theorem test_decode_jsr : decode 0b0100_1_10000000010 = .jsr 0x402 := by decide
theorem test_decode_jsrr : decode 0b0100_0_10_011_100001 = .jsrr 3 0b10 0b100001 := by decide
theorem test_decode_and : decode 0b0101_001_010_0_01_011 = .and 1 2 3 0b01 := by decide
theorem test_decode_andImm : decode 0b0101_110_010_1_10000 = .andImm 6 2 0b10000 := by decide
theorem test_decode_ldr : decode 0b0110_010_001_111111 = .ldr 2 1 0x3F := by decide
theorem test_decode_str : decode 0b0111_010_001_000001 = .str 2 1 1 := by decide
theorem test_decode_rti : decode 0b1000_000000000001 = .rti 1 := by decide
theorem test_decode_not : decode 0b1001_001_010_011111 = .not 1 2 0b011111 := by decide
theorem test_decode_ldi : decode 0b1010_101_000000001 = .ldi 5 1 := by decide
theorem test_decode_sti : decode 0b1011_100_100000000 = .sti 4 0x100 := by decide
theorem test_decode_jmp : decode 0b1100_001_011_100000 = .jmp 3 1 0b100000 := by decide
theorem test_decode_ret : decode 0b1100_010_111_000011 = .ret 2 3 := by decide
theorem test_decode_reserved : decode 0b1101_111111111110 = .reserved 0xFFE := by decide
theorem test_decode_lea : decode 0b1110_001_000000101 = .lea 1 5 := by decide
theorem test_decode_trapGetc : decode 0b1111_0000_00100000 = .trapGetc 0 := by decide
theorem test_decode_trapOut : decode 0b1111_0001_00100001 = .trapOut 1 := by decide
theorem test_decode_trapPuts : decode 0b1111_0010_00100010 = .trapPuts 2 := by decide
theorem test_decode_trapIn : decode 0b1111_0011_00100011 = .trapIn 3 := by decide
theorem test_decode_trapPutsp : decode 0b1111_0100_00100100 = .trapPutsp 4 := by decide
theorem test_decode_trapHalt : decode 0b1111_1111_00100101 = .trapHalt 15 := by decide
theorem test_decode_trapUnknown : decode 0b1111_0101_10100101 = .trapUnknown 5 0xA5 := by decide
theorem test_decodeTableWord_refuses_two_words : decodeTableWord 32 0x1283 = none := by decide
theorem test_decodeTableWord_ret : decodeTableWord 16 0xC1C0 = some (.ret 0 0) := by decide

/-! ### Sign extension and flags (the tables of 95_test_vectors.md) -/

theorem test_sext_tables :
    sext 0b10000#5 = 0xFFF0 ∧ sext 0b01111#5 = 0x000F ∧ sext 0b100000#6 = 0xFFE0 ∧ sext 0b011111#6 = 0x001F ∧
    sext 0x100#9 = 0xFF00 ∧ sext 0x0FF#9 = 0x00FF ∧ sext 0x400#11 = 0xFC00 ∧ sext 0x3FF#11 = 0x03FF ∧
    sext8 0x80 = 0xFF80 ∧ sext8 0x7F = 0x007F := by decide
theorem test_condOf_table :
    condOf 0x0000 = 2 ∧ condOf 0x0001 = 1 ∧ condOf 0x7FFF = 1 ∧ condOf 0x8000 = 4 ∧ condOf 0xFFFF = 4 := by decide

/-! ### Operate -/

-- ADD-4
theorem test_add_doubles : result (step ((start 0x1241).setReg 1 0x1234)) (fun t => (t.reg 1, t.cond, t.pc)) = some (0x2468, 1, 0x3001) := by decide
-- ADD-2
theorem test_add_carry_lost : result (step (((start 0x1042).setReg 1 0xFFFF).setReg 2 1)) (fun t => (t.reg 0, t.cond)) = some (0, 2) := by decide
-- ADD-1
theorem test_addImm_overflow : result (step ((start 0x1061).setReg 1 0x7FFF)) (fun t => (t.reg 0, t.cond)) = some (0x8000, 4) := by decide
-- Scenario 2
theorem test_addImm_negative : result (step ((start 0x12BD).setReg 2 1)) (fun t => (t.reg 1, t.cond)) = some (0xFFFE, 4) := by decide
-- AND-5
theorem test_and_ignored_bits : result (step (((start 0x5298).setReg 2 0xABCD).setReg 0 0xFFFF)) (fun t => (t.reg 1, t.cond)) = some (0xABCD, 4) := by decide
-- AND-2
theorem test_andImm_sign_extends : result (step ((start 0x52B0).setReg 2 0xABCD)) (fun t => (t.reg 1, t.cond)) = some (0xABC0, 4) := by decide
-- AND-4
theorem test_andImm_low : result (step ((start 0x52AF).setReg 2 0x1234)) (fun t => (t.reg 1, t.cond)) = some (0x0004, 1) := by decide
-- NOT-3
theorem test_not_ignored_bits : result (step ((start 0x9000).setReg 0 0x8000)) (fun t => (t.reg 0, t.cond)) = some (0x7FFF, 1) := by decide

/-! ### Branches, calls, jumps -/

-- Scenario 4
theorem test_br_taken : result (step ((start 0x0802).setCond 4)) (fun t => t.pc) = some 0x3003 := by decide
-- BR-5
theorem test_br_not_taken : result (step ((start 0x0A10).setCond 2)) (fun t => t.pc) = some 0x3001 := by decide
-- JSR-1
theorem test_jsr_back : result (step (start 0x4C00)) (fun t => (t.reg 7, t.pc)) = some (0x3001, 0x2C01) := by decide
-- JSRR-1
theorem test_jsrr_r7 : result (step ((start 0x41C0).setReg 7 0x5000)) (fun t => (t.reg 7, t.pc)) = some (0x3001, 0x3001) := by decide
-- JSRR-2
theorem test_jsrr_r3 : result (step ((start 0x46FF).setReg 3 0x4000)) (fun t => (t.reg 7, t.pc)) = some (0x3001, 0x4000) := by decide
-- JMP-1
theorem test_ret_ignored_bits : result (step ((start 0xCFFF).setReg 7 0x3456)) (fun t => (t.reg 7, t.pc)) = some (0x3456, 0x3456) := by decide
-- JMP-2
theorem test_jmp_r0 : result (step ((start 0xC000).setReg 0 0xFE00)) (fun t => t.pc) = some 0xFE00 := by decide

/-! ### Loads, stores, LEA, the keyboard -/

-- LD-1
theorem test_ld_back : result (step ((start 0x2100).memWrite 0x2F01 0x8001)) (fun t => (t.reg 0, t.cond)) = some (0x8001, 4) := by decide
-- LDR-4
theorem test_ldr_input_failure :
    result (step ((((start 0x6040).setReg 1 0xFE00).memWrite 0xFE00 0x1234).setInput [.fail]))
      (fun t => (t.status, t.fault, t.reg 0, t.memPlain 0xFE00, t.trace)) =
    some (.faulted, ⟨.inputFailure, 0x3000, 0x6040, 0xFE00⟩, 0, 0x1234, [.probe true]) := by decide
-- LDR-7
theorem test_ldr_wraps : result (step (((start 0x6041).setReg 1 0xFFFF).memWrite 0 0x00AA)) (fun t => (t.reg 0, t.cond)) = some (0x00AA, 1) := by decide
-- LDI-3
theorem test_ldi_pointer_is_kbsr :
    result (step ((((State.reset.setPc 0xFDFF).memWrite 0xFDFF 0xA000).memWrite 0x8000 0x0456).setInput [.byte 0x41]))
      (fun t => (t.reg 0, t.memPlain 0xFE00, t.memPlain 0xFE02, t.trace)) =
    some (0x0456, 0x8000, 0x0041, [.probe true, .read 0x41]) := by decide
-- Scenario 7, step 1
theorem test_ldi_no_key :
    result (step ((start 0xA001).memWrite 0x3002 0xFE00)) (fun t => (t.reg 0, t.cond, t.trace)) =
    some (0, 2, [.probe false]) := by decide
-- LEA-1
theorem test_lea_wraps_to_zero : result (step ((State.reset.setPc 0).memWrite 0 0xE1FF)) (fun t => (t.reg 0, t.cond)) = some (0, 2) := by decide
-- R154's example
theorem test_st_over_itself : result (step ((start 0x37FF).setReg 3 0xBEEF)) (fun t => t.memPlain 0x3000) = some 0xBEEF := by decide
-- STI-2
theorem test_sti_pointer_is_kbsr :
    result (step (((State.reset.setPc 0xFDFF).memWrite 0xFDFF 0xB000).setReg 0 0x0099))
      (fun t => (t.memPlain 0, t.memPlain 0xFE00)) = some (0x0099, 0) := by decide
-- STR-2
theorem test_str_wraps : result (step (((start 0x7441).setReg 1 0xFFFF).setReg 2 0x5555)) (fun t => t.memPlain 0) = some 0x5555 := by decide
-- FETCH-2
theorem test_fetch_from_kbsr_finds_key :
    result (step ((State.reset.setPc 0xFE00).setInput [.byte 0x41])) (fun t => (t.status, t.fault, t.pc, t.memPlain 0xFE02)) =
    some (.faulted, ⟨.illegalOpcodeRti, 0xFE00, 0x8000, 0x0008⟩, 0xFE01, 0x0041) := by decide
-- FETCH-3
theorem test_fetch_from_kbsr_fails :
    result (step ((State.reset.setPc 0xFE00).setInput [.fail])) (fun t => (t.status, t.fault, t.pc)) =
    some (.faulted, ⟨.inputFailure, 0xFE00, 0x0000, 0xFE00⟩, 0xFE01) := by decide

/-! ### Traps and unused opcodes -/

-- GETC-4 (P_INPUT_EXT = Sign)
theorem test_getc_sign :
    result (exec (.trapGetc 0) { State.reset with pc := 0x3001, input := [.byte 0xE9], inputExt := .sign })
      (fun t => (t.reg 0, t.cond, t.reg 7, t.trace)) = some (0xFFE9, 4, 0x3001, [.read 0xE9]) := by decide
-- GETC-5: Hold, then the byte is still there
theorem test_getc_holds :
    result (step ((start 0xF020).setInput [.wait, .byte 0x61])) (fun t => (t.pc, t.reg 7, t.input, t.trace)) =
    some (0x3000, 0, [.byte 0x61], []) := by decide
-- OUT-1
theorem test_out : result (step ((start 0xF021).setReg 0 0x1241)) (fun t => (t.reg 7, t.trace)) = some (0x3001, [.write 0x41, .flush]) := by decide
-- OUT-2
theorem test_out_fails :
    result (step (((start 0xF021).setReg 0 0x0041).setOutAnswers [.fail])) (fun t => (t.fault, t.trace, t.reg 7)) =
    some (⟨.outputFailure, 0x3000, 0xF021, 0x0021⟩, [], 0x3001) := by decide
-- PUTS-3
theorem test_puts_wraps :
    result (step ((((start 0xF022).setReg 0 0xFFFF).memWrite 0xFFFF 0x0041).memWrite 0 0x0042)) (fun t => (t.trace, t.reg 0)) =
    some ([.write 0x41, .write 0x42, .flush], 0xFFFF) := by decide
-- PUTS-4
theorem test_puts_reads_kbsr_plainly :
    result (step (((start 0xF022).setReg 0 0xFE00).memWrite 0xFE00 0x0041)) (fun t => (t.trace, t.memPlain 0xFE00)) =
    some ([.write 0x41, .flush], 0x0041) := by decide
-- IN-2
theorem test_in_fails :
    result (step ((start 0xF023).setInput [.fail])) (fun t => (t.fault, t.trace.length, t.reg 0)) =
    some (⟨.inputFailure, 0x3000, 0xF023, 0x0023⟩, 19, 0) := by decide
-- IN-1
theorem test_in_echoes :
    result (step ((start 0xF023).setInput [.byte 0x78])) (fun t => (t.reg 0, t.cond, t.trace.drop 17)) =
    some (0x78, 1, [.write 0x3A, .write 0x20, .read 0x78, .write 0x78, .flush]) := by decide
-- PUTSP-1
theorem test_putsp :
    result (step (((((start 0xF024).setReg 0 0x4000).memWrite 0x4000 0x4100).memWrite 0x4001 0x0041).memWrite 0x4002 0x4443))
      (fun t => t.trace) = some [.write 0x00, .write 0x41, .write 0x41, .write 0x43, .write 0x44, .flush] := by decide
-- HALT-2
theorem test_halt :
    result (step (start 0xFF25)) (fun t => (t.status, t.reg 7, t.pc, t.trace)) =
    some (.halted, 0x3001, 0x3001, [.write 0x48, .write 0x41, .write 0x4C, .write 0x54, .write 0x0A, .flush]) := by decide
-- HALT-3
theorem test_halt_flush_fails :
    result (step ((start 0xF025).setOutAnswers [.ok, .ok, .ok, .ok, .ok, .fail])) (fun t => (t.status, t.fault, t.trace.length)) =
    some (.faulted, ⟨.outputFailure, 0x3000, 0xF025, 0x0025⟩, 5) := by decide
-- TRAP-1
theorem test_trap_unknown :
    result (step (start 0xF026)) (fun t => (t.status, t.fault, t.reg 7)) =
    some (.faulted, ⟨.unknownTrap, 0x3000, 0xF026, 0x0026⟩, 0x3001) := by decide
-- RTI-2
theorem test_rti : result (step (start 0x8FFF)) (fun t => (t.status, t.fault)) = some (.faulted, ⟨.illegalOpcodeRti, 0x3000, 0x8FFF, 0x0008⟩) := by decide
-- RES-2
theorem test_reserved :
    result (step ((State.reset.setPc 0x4000).memWrite 0x4000 0xDFFF)) (fun t => (t.pc, t.fault)) =
    some (0x4001, ⟨.illegalOpcodeReserved, 0x4000, 0xDFFF, 0x000D⟩) := by decide
-- STOP-1
theorem test_stopped :
    stop (step ((start 0x1241).setStatus .halted)) = some .halted ∧ stop (step ((start 0x1241).setStatus .faulted)) = some .faulted := by
  decide

/-! ### The loader -/

-- IMG-2, IMG-3
theorem test_loader_bound :
    loadImage (some [0xFF, 0xFE, 0x11, 0x11, 0x22, 0x22, 0x33, 0x33]) [] = some [(0xFFFE, 0x1111), (0xFFFF, 0x2222)] ∧
    loadImage (some [0xFF, 0xFF, 0x11, 0x11, 0x22]) [] = some [(0xFFFF, 0x1111)] := by decide
-- IMG-4, IMG-5, IMG-6
theorem test_loader_failures :
    loadImage (some [0x30, 0x00, 0x12]) [] = none ∧ loadImage (some [0x30, 0x00]) [] = some [] ∧
    loadImage (some []) [] = none ∧ loadImage (some [0x30]) [] = none ∧ loadImage none [] = none := by decide
-- IMG-7
theorem test_loader_later_wins :
    loadImages [some [0x30, 0x00, 0x11, 0x11, 0x22, 0x22], some [0x30, 0x01, 0x33, 0x33]] [] =
    some [(0x3000, 0x1111), (0x3001, 0x3333)] := by decide

end Sys2Proof.Tests
end

