-- ==== Sys2Proof/Tests/Witnesses.lean ====
section
/-! SUPPORT. For every statement with hypotheses, a state and operands that meet them together; where a statement has
several clauses, one witness for each, at the ends of its range. Nothing here is a claim about the machine. -/

namespace Sys2Proof.Tests

open Sys2Proof.Machine

/-- A block about to execute with PC = 0xFE00, so that a PC-relative operand of offset 0 is KBSR. -/
def atKbsr (l : List InAnswer) : State := { State.reset with pc := 0xFE00, input := l }

/-- The reset state with these answers of the input device. -/
def withInput (l : List InAnswer) : State := State.reset.setInput l

/-- The reset state whose output device fails at answer number `k`. -/
def failingAt (k : Nat) : State := State.reset.setOutAnswers (List.replicate k .ok ++ [.fail])

/-- The reset state whose output device answers Ok `k` times and then fails. -/
def okFor (k : Nat) (l : List InAnswer) : State := (failingAt k).setInput l

theorem noKey_nil : (withInput []).noKey := .inl rfl
theorem noKey_wait : (withInput [.wait, .byte 0x41]).noKey := .inr ⟨_, rfl⟩

/-! ### Encoding -/

theorem witness_EncodeThenDecode :
    (Instr.trapUnknown 15 0x26).wellFormed = true ∧ (Instr.jmp 6 7 0x3F).wellFormed = true := by decide
theorem witness_DecodedRowMatchesWord :
    (0xCFFF : Word) &&& 0xF1C0 = 0xC1C0 ∧
    ((0xF020 : Word) &&& 0xF000 = 0xF000 ∧ knownTrapVector (field7to0 0xF020) = true) ∧
    (0xFF25 : Word) &&& 0xF000 = 0xF000 ∧ knownTrapVector (field7to0 0xFF25) = true := by decide
theorem witness_IgnoredBitsChangeNothing :
    ((0x1283 : Word) ≠ 0x129B ∧
      (0x1283 : Word) &&& ~~~(decode 0x1283).ignoredBits = 0x129B &&& ~~~(decode 0x1283).ignoredBits) ∧
    ((0xF020 : Word) ≠ 0xFF20 ∧
      (0xF020 : Word) &&& ~~~(decode 0xF020).ignoredBits = 0xFF20 &&& ~~~(decode 0xF020).ignoredBits) := by decide

/-! ### The primitives -/

theorem witness_InputByteExtension : (0x7F : Byte).getLsbD 7 = false ∧ (0x00 : Byte).getLsbD 7 = false := by decide
theorem witness_MemReadRule :
    ((0xFDFF : Word) ≠ kbsr ∧ (0xFE01 : Word) ≠ kbsr ∧ kbdr ≠ kbsr) ∧
    (withInput []).noKey ∧ (withInput [.wait, .byte 0x41]).noKey ∧
    (withInput [.byte 0xFF]).input = .byte 0xFF :: [] ∧ (withInput [.fail, .wait]).input = .fail :: [.wait] :=
  ⟨by decide, noKey_nil, noKey_wait, rfl, rfl⟩
theorem witness_KbsrWriteNeverReadBack :
    (∃ u, (State.reset.memWrite kbsr 0x1234).memRead kbsr = .value 0x0000 u) ∧
    (∃ u, ((withInput [.byte 0x41]).memWrite kbsr 0x1234).memRead kbsr = .value 0x8000 u) := ⟨⟨_, rfl⟩, _, rfl⟩

/-! ### The step -/

theorem witness_StepRunsDecoded :
    (∀ pc : Word, pc = 0xFDFF ∨ pc = 0xFE01 ∨ pc = 0xFFFF →
      ((State.reset.setPc pc).memWrite pc 0xC1C0).status = .running ∧
      ((State.reset.setPc pc).memWrite pc 0xC1C0).pc ≠ kbsr ∧ (Instr.ret 0 0).wellFormed = true ∧
      ((State.reset.setPc pc).memWrite pc 0xC1C0).memPlain ((State.reset.setPc pc).memWrite pc 0xC1C0).pc =
        encode (.ret 0 0)) := by
  rintro pc (rfl | rfl | rfl) <;> decide
theorem witness_StepFetchesThenDispatches :
    ((State.reset.setPc 0xFFFF).status = .running ∧
      ∃ w u, ((State.reset.setPc 0xFFFF).setPc (0xFFFF + 1)).memRead 0xFFFF = .value w u) ∧
    ((atKbsr [.fail]).status = .running ∧
      ∃ u, ((atKbsr [.fail]).setPc (0xFE00 + 1)).memRead 0xFE00 = .inputFailure u) :=
  ⟨⟨rfl, _, _, rfl⟩, rfl, _, rfl⟩
theorem witness_FetchFromKbsr :
    (∀ l, (atKbsr l).status = .running ∧ (atKbsr l).pc = kbsr) ∧ (atKbsr []).noKey ∧ (atKbsr [.wait]).noKey ∧
    (atKbsr [.byte 0x80]).input = .byte 0x80 :: [] ∧ (atKbsr [.fail]).input = .fail :: [] :=
  ⟨fun _ => ⟨rfl, rfl⟩, .inl rfl, .inr ⟨_, rfl⟩, rfl, rfl⟩
theorem witness_StoppedBlockTakesNoStep :
    (State.reset.setStatus .halted).status = .halted ∧ (State.reset.setStatus .faulted).status = .faulted := by decide

/-! ### Operate, loads, stores -/

theorem witness_AddResult :
    (0x1000 : Word) &&& 0xF020 = 0x1000 ∧ (0x1FDF : Word) &&& 0xF020 = 0x1000 ∧
    (0x1020 : Word) &&& 0xF020 = 0x1020 ∧ (0x1FFF : Word) &&& 0xF020 = 0x1020 := by decide
theorem witness_AndResult :
    (0x5000 : Word) &&& 0xF020 = 0x5000 ∧ (0x5FDF : Word) &&& 0xF020 = 0x5000 ∧
    (0x5020 : Word) &&& 0xF020 = 0x5020 ∧ (0x5FFF : Word) &&& 0xF020 = 0x5020 := by decide
theorem witness_NotResult : (0x9000 : Word) &&& 0xF000 = 0x9000 ∧ (0x9FFF : Word) &&& 0xF000 = 0x9000 := by decide
theorem witness_LoadDirectResult :
    ((0x2000 : Word) &&& 0xF000 = 0x2000 ∧ (0x2FFF : Word) &&& 0xF000 = 0x2000) ∧
    ((atKbsr []).pc + sext (field8to0 0x2001) ≠ kbsr ∧ (atKbsr []).pc + sext (field8to0 0x21FF) ≠ kbsr) ∧
    (∀ l, (atKbsr l).pc + sext (field8to0 0x2000) = kbsr) ∧ (atKbsr []).noKey ∧
    (atKbsr [.byte 0x41]).input = .byte 0x41 :: [] ∧ (atKbsr [.fail]).input = .fail :: [] :=
  ⟨by decide, by decide, fun _ => rfl, .inl rfl, rfl, rfl⟩
theorem witness_LoadIndirectResult :
    ((0xA000 : Word) &&& 0xF000 = 0xA000 ∧ (0xAFFF : Word) &&& 0xF000 = 0xA000) ∧
    (State.reset.pc + sext (field8to0 0xA000) ≠ kbsr ∧
      State.reset.memPlain (State.reset.pc + sext (field8to0 0xA000)) ≠ kbsr) ∧
    (∀ l, ((withInput l).memWrite 0x3000 0xFE00).pc + sext (field8to0 0xA000) ≠ kbsr ∧
      ((withInput l).memWrite 0x3000 0xFE00).memPlain 0x3000 = kbsr) ∧
    (∀ l, (atKbsr l).pc + sext (field8to0 0xA000) = kbsr) ∧ (atKbsr []).noKey ∧
    (atKbsr [.byte 0x41]).input = .byte 0x41 :: [] ∧ (atKbsr [.fail]).input = .fail :: [] :=
  ⟨by decide, by decide, fun l => ⟨show (0x3000 : Word) + sext (field8to0 0xA000) ≠ kbsr by decide,
    State.memPlain_memWrite_self (withInput l) 0x3000 0xFE00⟩, fun _ => rfl, .inl rfl, rfl, rfl⟩
theorem witness_LoadBaseOffsetResult :
    ((0x6000 : Word) &&& 0xF000 = 0x6000 ∧ (0x6FFF : Word) &&& 0xF000 = 0x6000) ∧
    (State.reset.reg (field8to6 0x6FFF) + sext (field5to0 0x6FFF) ≠ kbsr) ∧
    (∀ l, ((withInput l).setReg 1 0xFE01).reg (field8to6 0x607F) + sext (field5to0 0x607F) = kbsr) ∧
    (withInput []).noKey ∧ (withInput [.byte 0x41]).input = .byte 0x41 :: [] ∧
    (withInput [.fail]).input = .fail :: [] :=
  ⟨by decide, by decide, fun l => by rw [show field8to6 0x607F = 1 by decide, State.reg_setReg, if_pos rfl]; decide,
    .inl rfl, rfl, rfl⟩
theorem witness_LoadEffectiveAddressResult :
    (0xE000 : Word) &&& 0xF000 = 0xE000 ∧ (0xEFFF : Word) &&& 0xF000 = 0xE000 := by decide
theorem witness_StoreDirectResult :
    (0x3000 : Word) &&& 0xF000 = 0x3000 ∧ (0x3FFF : Word) &&& 0xF000 = 0x3000 := by decide
theorem witness_StoreIndirectResult :
    ((0xB000 : Word) &&& 0xF000 = 0xB000 ∧ (0xBFFF : Word) &&& 0xF000 = 0xB000) ∧
    (State.reset.pc + sext (field8to0 0xB000) ≠ kbsr) ∧
    (∀ l, (atKbsr l).pc + sext (field8to0 0xB000) = kbsr) ∧ (atKbsr []).noKey ∧
    (atKbsr [.byte 0x41]).input = .byte 0x41 :: [] ∧ (atKbsr [.fail]).input = .fail :: [] :=
  ⟨by decide, by decide, fun _ => rfl, .inl rfl, rfl, rfl⟩
theorem witness_StoreBaseOffsetResult :
    (0x7000 : Word) &&& 0xF000 = 0x7000 ∧ (0x7FFF : Word) &&& 0xF000 = 0x7000 := by decide
theorem witness_LeaThenLdrIsLd :
    State.reset.pc + sext (0x1FF : BitVec 9) ≠ kbsr ∧
    State.reset.memPlain (State.reset.pc + sext (0x1FF : BitVec 9)) ≠ kbsr ∧
    State.reset.memPlain (State.reset.pc + sext (0x1FF : BitVec 9)) ≠ State.reset.pc + sext (0x1FF : BitVec 9) := by
  decide

/-! ### Control -/

theorem witness_BranchResult :
    ((0x0E01 : Word) &&& 0xF000 = 0x0000 ∧ (field11to9 0x0E01).setWidth 16 &&& State.reset.cond ≠ 0) ∧
    ((0x0BFF : Word) &&& 0xF000 = 0x0000 ∧ (field11to9 0x0BFF).setWidth 16 &&& State.reset.cond = 0) := by decide
theorem witness_BranchMaskExtremes : condLegal (State.reset.setCond 0x0004).cond := .inr (.inr rfl)
theorem witness_JsrResult : (0x4800 : Word) &&& 0xF800 = 0x4800 ∧ (0x4FFF : Word) &&& 0xF800 = 0x4800 := by decide
theorem witness_JsrrResult :
    ((0x4000 : Word) &&& 0xF800 = 0x4000 ∧ field8to6 0x4000 ≠ 7) ∧
    ((0x47FF : Word) &&& 0xF800 = 0x4000 ∧ field8to6 0x47FF = 7) := by decide
theorem witness_JmpResult :
    ((0xC000 : Word) &&& 0xF000 = 0xC000 ∧ field8to6 0xC000 ≠ 7) ∧ (0xCFFF : Word) &&& 0xF000 = 0xC000 := by decide
theorem witness_RetResult : (0xC1C0 : Word) &&& 0xF1C0 = 0xC1C0 ∧ (0xCFFF : Word) &&& 0xF1C0 = 0xC1C0 := by decide

/-! ### Traps -/

theorem witness_GetcResult :
    ((0xF020 : Word) &&& 0xF0FF = 0xF020 ∧ (0xFF20 : Word) &&& 0xF0FF = 0xF020) ∧
    (withInput [.byte 0]).input = .byte 0 :: [] ∧ (withInput [.fail]).input = .fail :: [] ∧
    (withInput []).noKey ∧ (withInput [.wait, .byte 0x41]).noKey :=
  ⟨by decide, rfl, rfl, noKey_nil, noKey_wait⟩
theorem witness_OutResult :
    (0xF021 : Word) &&& 0xF0FF = 0xF021 ∧ State.reset.outputOk 2 ∧ (failingAt 2).outputOk 2 := by
  refine ⟨by decide, ?_, ?_⟩ <;> unfold State.outputOk <;> decide
/-- An empty string, and one of two words that wraps from 0xFFFF to 0x0000. -/
theorem witness_PutsResult :
    ((0xF022 : Word) &&& 0xF0FF = 0xF022 ∧ State.reset.memPlain (State.reset.reg 0 + BitVec.ofNat 16 0) = 0 ∧
      State.reset.outputOk (0 + 1)) ∧
    (let s := (((failingAt 3).setReg 0 0xFFFF).memWrite 0xFFFF 0x4241).memWrite 0x0000 0x0043
     (∀ k < 2, s.memPlain (s.reg 0 + BitVec.ofNat 16 k) ≠ 0) ∧ s.memPlain (s.reg 0 + BitVec.ofNat 16 2) = 0 ∧
      s.outputOk (2 + 1)) := by
  unfold State.outputOk
  decide
theorem witness_InResult :
    (0xF023 : Word) &&& 0xF0FF = 0xF023 ∧
    ((okFor 21 [.byte 0x78]).input = .byte 0x78 :: [] ∧ (okFor 21 [.byte 0x78]).outputOk 21) ∧
    ((okFor 19 [.fail]).input = .fail :: [] ∧ (okFor 19 [.fail]).outputOk 19) ∧
    ((okFor 19 []).noKey ∧ (okFor 19 []).outputOk 19) := by
  refine ⟨by decide, ⟨rfl, ?_⟩, ⟨rfl, ?_⟩, .inl rfl, ?_⟩ <;> unfold State.outputOk <;> decide
/-- An empty string, and one of two words, the second with a zero high byte: three Writes and a Flush. -/
theorem witness_PutspResult :
    ((0xF024 : Word) &&& 0xF0FF = 0xF024 ∧ State.reset.memPlain (State.reset.reg 0 + BitVec.ofNat 16 0) = 0 ∧
      State.reset.outputOk 1) ∧
    (let s := (((failingAt 4).setReg 0 0xFFFF).memWrite 0xFFFF 0x4241).memWrite 0x0000 0x0043
     (∀ k < 2, s.memPlain (s.reg 0 + BitVec.ofNat 16 k) ≠ 0) ∧ s.memPlain (s.reg 0 + BitVec.ofNat 16 2) = 0 ∧
      s.outputOk 4) := by
  unfold State.outputOk
  decide
theorem witness_HaltResult : (0xFF25 : Word) &&& 0xF0FF = 0xF025 ∧ (failingAt 6).outputOk 6 := by
  unfold State.outputOk
  decide
theorem witness_UnknownTrapResult :
    ((0xF01F : Word) &&& 0xF000 = 0xF000 ∧ knownTrapVector (field7to0 0xF01F) = false) ∧
    ((0xFF26 : Word) &&& 0xF000 = 0xF000 ∧ knownTrapVector (field7to0 0xFF26) = false) := by decide
/-- A memory whose first `n` cells hold TRAP x22. -/
def filled (n : Nat) : Memory := (List.range n).map fun a => (a, 0xF022)

theorem filled_read {n a : Nat} (h : a < n) : (filled n).read a = 0xF022 := by
  have read : ∀ l : List Nat, a ∈ l → Memory.read (l.map fun a => (a, (0xF022 : Word))) a = 0xF022 := by
    intro l ha
    induction l with
    | nil => cases ha
    | cons k l ih =>
      by_cases hk : k = a
      · simp [Memory.read, hk]
      · simpa [Memory.read, hk] using ih (by simpa [Ne.symm hk] using ha)
  exact read _ (List.mem_range.mpr h)

/-- A block whose first `n` cells hold TRAP x22; for `n` = 65536 no string has an end. -/
def filledBlock (n : Nat) : State := { State.reset with mem := filled n }

theorem filledBlock_read {n : Nat} {a : Word} (h : a.toNat < n) : (filledBlock n).memPlain a = 0xF022 := filled_read h

theorem filledBlock_memPlain (a : Word) : (filledBlock 65536).memPlain a = 0xF022 :=
  filledBlock_read (Nat.lt_of_lt_of_eq a.isLt (by decide))

/-- A Running block whose PC is 0x3000 and whose every word is TRAP x22 makes a step without an end. -/
theorem step_of_filled {s : State} (hr : s.status = .running) (hp : s.pc = 0x3000) (hm : ∀ a, s.memPlain a = 0xF022)
    (ho : s.outAnswers = []) : step s = .fault .diverge := by
  have hf : s.fetch = .value 0xF022 (s.setPc (s.pc + 1)) := by
    rw [State.fetch, State.memRead_of_ne _ (by rw [hp]; decide)]
    exact congrArg (Access.value · _) (hm s.pc)
  have hd : decode 0xF022 = .trapPuts 0 := by decide
  rcases step_cases s with ⟨h, -⟩ | ⟨h, -⟩ | ⟨-, w, u, h, e⟩ | ⟨-, u, h, -⟩
  · simp [hr] at h
  · simp [hr] at h
  · rw [hf] at h
    injection h with hw hu
    subst hw hu
    rw [e, hd]
    simp only [exec, execTrapPuts]
    rw [State.outString_of_no_end _ _ _ _ (fun a => by simp [hm]) (by simp [ho])]
    rfl
  · rw [hf] at h
    cases h

/-- The device's first Fail is its answer number `k`, whatever else the state is. -/
theorem failsAt (s : State) (k : Nat) : (s.setOutAnswers (List.replicate k .ok ++ [.fail])).outputFailsAt k := by
  refine ⟨fun a ha => ?_, ?_⟩
  · have h : (List.replicate k OutAnswer.ok ++ [OutAnswer.fail]).take k = List.replicate k .ok := by
      rw [List.take_append_of_le_length (by simp), List.take_of_length_le (by simp)]
    exact List.eq_of_mem_replicate (h ▸ ha)
  · simp

/-- The block of `filledBlock n` whose output device fails at answer number `k`. -/
def filledFailingAt (n k : Nat) : State := (filledBlock n).setOutAnswers (List.replicate k .ok ++ [.fail])

theorem filledFailingAt_failsAt (n k : Nat) : (filledFailingAt n k).outputFailsAt k := failsAt (filledBlock n) k

theorem filledFailingAt_read {n : Nat} {a : Word} (k : Nat) (h : a.toNat < n) :
    (filledFailingAt n k).memPlain a = 0xF022 := filled_read h

theorem endlessFailingAt_memPlain (k : Nat) (a : Word) : (filledFailingAt 65536 k).memPlain a = 0xF022 :=
  filledFailingAt_read k (Nat.lt_of_lt_of_eq a.isLt (by decide))

theorem endlessFailingAt_ne_zero (k : Nat) (a : Word) : (filledFailingAt 65536 k).memPlain a ≠ 0 := by
  rw [endlessFailingAt_memPlain]
  decide

/-- Every word 0xF022 of it is two Writes. -/
theorem endlessFailingAt_putspWrites (k m : Nat) :
    (Sys2Proof.Claims.putspWrites (filledFailingAt 65536 k) m).length = m * 2 := by
  have h : (Sys2Proof.Claims.packedWrites 0xF022).length = 2 := by decide
  simp only [Sys2Proof.Claims.putspWrites, endlessFailingAt_memPlain, List.length_flatMap, h, List.map_const',
    List.length_range, List.sum_replicate, smul_eq_mul]

/-- The first and the last operation of each routine: OUT 0 and 1, HALT 5, PUTS and PUTSP (empty string) 0, IN's prompt
18, IN's echo 19 and flush 20; and the last Write of a string without an end, PUTS 65535 and PUTSP 131071. -/
theorem witness_OutputFailureFaults :
    (∀ k < 21, (failingAt k).outputFailsAt k) ∧
    (State.reset.memPlain (State.reset.reg 0 + BitVec.ofNat 16 0) = 0) ∧
    ((okFor 19 [.byte 0x41]).input = .byte 0x41 :: [] ∧
      (okFor 19 [.byte 0x41]).outputFailsAt 19 ∧ (okFor 20 [.byte 0x41]).outputFailsAt 20) ∧
    (∀ k, k = 65535 ∨ k = 131071 → (filledFailingAt 65536 k).outputFailsAt k) ∧
    (∀ k, ∀ j < 65536, (filledFailingAt 65536 k).memPlain ((filledFailingAt 65536 k).reg 0 + BitVec.ofNat 16 j) ≠ 0) ∧
    65535 < 65536 ∧ ∀ k, 131071 < (Sys2Proof.Claims.putspWrites (filledFailingAt 65536 k) 65536).length := by
  refine ⟨?_, by decide, ⟨rfl, ?_, ?_⟩, fun k _ => filledFailingAt_failsAt _ k,
    fun k _ _ => endlessFailingAt_ne_zero k _, by decide, fun k => ?_⟩
  · unfold State.outputFailsAt State.outputOk
    decide
  · exact failsAt (withInput [.byte 0x41]) 19
  · exact failsAt (withInput [.byte 0x41]) 20
  · rw [endlessFailingAt_putspWrites]
    decide

/-- With no Fail to come, and with the first Fail just after the last Write of each routine. -/
theorem witness_StringWithoutEndDiverges :
    (∀ k a, (filledFailingAt 65536 k).memPlain a ≠ 0) ∧
    (filledFailingAt 65536 65536).outputOk Config.memorySize ∧
    (filledFailingAt 65536 131072).outputOk
      (Sys2Proof.Claims.putspWrites (filledFailingAt 65536 131072) Config.memorySize).length :=
  ⟨endlessFailingAt_ne_zero, (filledFailingAt_failsAt _ _).1,
    by rw [endlessFailingAt_putspWrites]; exact (filledFailingAt_failsAt _ _).1⟩
theorem witness_HoldChangesNothing :
    ((start 0xFF20).status = .running ∧ (start 0xFF20).pc ≠ kbsr ∧ (start 0xFF20).noKey ∧
      (start 0xFF20).memPlain (start 0xFF20).pc &&& 0xF0FF = 0xF020) ∧
    (let s := (start 0xF023).setOutAnswers (List.replicate 19 .ok ++ [.fail])
     s.status = .running ∧ s.pc ≠ kbsr ∧ s.noKey ∧ s.memPlain s.pc &&& 0xF0FF = 0xF023 ∧ s.outputOk 19) := by
  refine ⟨⟨rfl, by decide, .inl rfl, by decide⟩, rfl, by decide, .inl rfl, by decide, ?_⟩
  unfold State.outputOk
  decide
theorem witness_UnusedOpcodesFault :
    (0x8000 : Word) &&& 0xF000 = 0x8000 ∧ (0x8FFF : Word) &&& 0xF000 = 0x8000 ∧
    (0xD000 : Word) &&& 0xF000 = 0xD000 ∧ (0xDFFF : Word) &&& 0xF000 = 0xD000 := by decide

/-! ### The whole-machine rules -/

theorem witness_RegistersWrittenOnlyBy :
    ((∃ t, exec (.add 1 2 3 0) State.reset = .next t) ∧ ¬ (Instr.add 1 2 3 0).mayWriteReg 7) ∧
    ((∃ t, exec (.trapGetc 0) (withInput [.byte 0x41]) = .next t) ∧ ¬ (Instr.trapGetc 0).mayWriteReg 1 ∧
      (Instr.trapGetc 0).isTrap = true) ∧
    (∃ t, exec (.jsr 2) State.reset = .next t) ∧ (∃ t, exec (.jsrr 7 0 0) State.reset = .next t) := by
  refine ⟨⟨⟨_, rfl⟩, ?_⟩, ⟨⟨_, rfl⟩, ?_, rfl⟩, ⟨_, rfl⟩, _, rfl⟩ <;> unfold Instr.mayWriteReg <;> decide
theorem witness_PcWrittenOnlyBy :
    (∃ w u, (start 0x1021).fetch = .value w u) ∧ (∃ u, (atKbsr [.fail]).fetch = .inputFailure u) ∧
    ((∃ t, exec (.trapGetc 0) State.reset = .next t) ∧ (Instr.trapGetc 0).mayWritePc = false) ∧
    ((∃ t, exec (.br 0b101 4) State.reset = .next t) ∧ (0b101 : BitVec 3).setWidth 16 &&& State.reset.cond = 0) :=
  ⟨⟨_, _, rfl⟩, ⟨_, rfl⟩, ⟨⟨_, rfl⟩, rfl⟩, ⟨_, rfl⟩, by decide⟩
theorem witness_CondWrittenAndReadOnlyBy :
    (∃ t, exec (.not 0 0 0) State.reset = .next t) ∧ (∃ t, exec (.ldi 0 0) (atKbsr [.fail]) = .next t) ∧
    (Instr.trapIn 0).isBr = false ∧ ∃ t, exec (.trapIn 0) (withInput [.byte 0xFF]) = .next t :=
  ⟨⟨_, rfl⟩, ⟨_, rfl⟩, rfl, _, rfl⟩
theorem witness_CondAlwaysLegal :
    condLegal (start 0x103F).cond ∧ result (step (start 0x103F)) (fun t => t.cond) = some 0x0004 :=
  ⟨.inr (.inl rfl), by decide⟩
theorem witness_MemoryWrittenOnlyBy :
    ((∃ t, exec (.trapHalt 0) State.reset = .next t) ∧ (Instr.trapHalt 0).isStore = false ∧
      (Instr.trapHalt 0).mayPoll = false) ∧
    ((∃ t, exec (.ld 0 0) (atKbsr [.byte 0x41]) = .next t) ∧ (Instr.ld 0 0).isStore = false) ∧
    ((start 0x1021).pc ≠ kbsr ∧ ∃ w u, (start 0x1021).fetch = .value w u) :=
  ⟨⟨⟨_, rfl⟩, rfl, rfl⟩, ⟨⟨_, rfl⟩, rfl⟩, by decide, _, _, rfl⟩
theorem witness_OutputOnlyByRoutines :
    (∃ t, exec (.ldi 0 0) (atKbsr [.byte 0x41]) = .next t) ∧ (Instr.ldi 0 0).mayOutput = false := ⟨⟨_, rfl⟩, rfl⟩
theorem witness_EachInputByteIsReadOnce :
    result (step ((start 0xF020).setInput [.byte 0x61, .byte 0x62])) (fun t => t.input) = some [.byte 0x62] := by decide
theorem witness_OnlyHaltEndsARun :
    (start 0xF125).status = .running ∧ result (step (start 0xF125)) (fun t => t.status) = some .halted := by decide
/-- One instruction for each code, in the order of the statement. -/
theorem witness_FaultCauses :
    State.reset.status ≠ .faulted ∧
    result (exec (.rti 0) State.reset) (fun t => t.status) = some .faulted ∧
    result (exec (.reserved 0) State.reset) (fun t => t.status) = some .faulted ∧
    result (exec (.trapUnknown 0 0xFF) State.reset) (fun t => t.status) = some .faulted ∧
    result (exec (.sti 0 0) (atKbsr [.fail])) (fun t => t.status) = some .faulted ∧
    result (exec (.trapGetc 0) (withInput [.fail])) (fun t => t.status) = some .faulted ∧
    result (exec (.trapIn 0) (withInput [.fail])) (fun t => t.status) = some .faulted ∧
    result (exec (.trapOut 0) (failingAt 0)) (fun t => t.status) = some .faulted ∧
    result (exec (.trapPuts 0) (failingAt 0)) (fun t => t.status) = some .faulted ∧
    result (exec (.trapIn 0) (failingAt 18)) (fun t => t.status) = some .faulted ∧
    result (exec (.trapPutsp 0) (failingAt 0)) (fun t => t.status) = some .faulted ∧
    result (exec (.trapHalt 0) (failingAt 5)) (fun t => t.status) = some .faulted := by decide
theorem witness_EveryStepIsDefined :
    (State.reset.status = .running ∧ ∃ a, State.reset.memPlain a = 0) ∧
    ((filledBlock 65536).status = .running ∧ step (filledBlock 65536) = .fault .diverge) :=
  ⟨⟨rfl, 0, rfl⟩, rfl, step_of_filled rfl rfl filledBlock_memPlain rfl⟩
theorem witness_StepKeepsInvariant :
    (start 0x37FF).Inv ∧ result (step (start 0x37FF)) (fun t => t.status) = some .running :=
  ⟨⟨by decide, .inr (.inl rfl), fun h => by cases h⟩, by decide⟩

/-! ### The loader -/

/-- A launch; a memory that the images give; a further image over the first word, and one up to 0xFFFF; a failing one. -/
theorem witness_LaunchEstablishesInvariant :
    (∃ s, State.launch [some [0x30, 0x00, 0x12, 0x34]] [.byte 0x41] [.fail] .sign = some s) ∧
    (∃ mem0, loadImages [some [0x30, 0x00, 0x12, 0x34]] [] = some mem0) ∧
    ((0x3000 : Word).toNat + [(0x1111 : Word)].length ≤ 65536 ∧
      (0xFFFF : Word).toNat + [(0x1111 : Word)].length ≤ 65536) ∧
    (none ∈ [some [0x30, 0x00], (none : Image)] ∧ ∀ m, loadImage none m = none) :=
  ⟨⟨_, rfl⟩, ⟨_, rfl⟩, by decide, by decide, fun _ => rfl⟩
theorem witness_LoadedImageReadsBack :
    (0xFFFF : Word).toNat + [(0x1111 : Word)].length ≤ 65536 ∧ (0x0000 : Word).toNat + ([] : List Word).length ≤ 65536 := by
  decide
theorem witness_ImageLengthEdges :
    (0xFFFE : Word).toNat + [(0x1111 : Word), 0x2222].length = 65536 ∧
    (0xFFFE : Word).toNat + [(0x1111 : Word)].length < 65536 := by decide

end Sys2Proof.Tests
end

section
/-! SUPPORT. The sign extension of R9, at every width. -/

namespace Sys2Proof.Machine

/-- R9 at any width N: setting bits N..15 of a field adds 2^16 - 2^N to it. -/
theorem sext_eq_setWidth_add {n : Nat} (x : BitVec n) :
    sext x =
      if x.getLsbD (n - 1) then x.setWidth 16 + BitVec.ofNat 16 (2 ^ 16 - 2 ^ n) else x.setWidth 16 := by
  rw [← BitVec.msb_eq_getLsbD_last]
  cases hsign : x.msb with
  | false =>
    rw [if_neg Bool.false_ne_true]
    exact BitVec.signExtend_eq_setWidth_of_msb_false hsign
  | true =>
    have hnat : (sext x).toNat = (x.setWidth 16).toNat + (2 ^ 16 - 2 ^ n) := by
      rw [sext, BitVec.toNat_signExtend, if_pos hsign]
    rw [if_pos rfl]
    calc sext x = BitVec.ofNat 16 (sext x).toNat := by rw [BitVec.ofNat_toNat, BitVec.setWidth_eq]
      _ = x.setWidth 16 + BitVec.ofNat 16 (2 ^ 16 - 2 ^ n) := by
        rw [hnat, BitVec.ofNat_add, BitVec.ofNat_toNat, BitVec.setWidth_eq]

/-- The byte's sign extension is that of a field of 8 bits. -/
theorem sext8_eq_sext (b : Byte) : sext8 b = sext b := rfl

/-- Settles O7: the five widths are instances of R9 at width N. -/
theorem signExtension : Obligations.SignExtension :=
  ⟨sext_eq_setWidth_add, sext_eq_setWidth_add, sext_eq_setWidth_add, sext_eq_setWidth_add,
    fun b => (sext8_eq_sext b).trans (sext_eq_setWidth_add b)⟩

end Sys2Proof.Machine
end

section
/-! SUPPORT. setcc (R25, R27): the value it gives COND, and its frame. -/

namespace Sys2Proof.Machine

/-- The three legal values of COND are one-bit masks in bits 2..0 (R25). -/
theorem condLegal.bits15to3_eq_zero {c : Word} (h : condLegal c) : c &&& 0xFFF8 = 0 := by
  rcases h with rfl | rfl | rfl <;> decide

/-- setcc never gives COND an illegal value. -/
theorem condLegal_condOf (v : Word) : condLegal (condOf v) := condOf_cases v

/-- Settles O6: the value is `condOf` as R27 writes it, and a legal value has no bit above bit 2. -/
theorem setccValue : Obligations.SetccValue := fun _ v =>
  ⟨rfl, (condLegal_condOf v).bits15to3_eq_zero, rfl⟩

end Sys2Proof.Machine
end

section
/-! SUPPORT. What a step can do to COND (R26, R28): nothing, or setcc of the destination register. -/

namespace Sys2Proof.Machine

/-- From `s` to `t` COND is kept, or it is what setcc gives for the register `dest` names (R28). -/
def condKeptOrSet (dest : Option RegNum) (s t : State) : Prop :=
  t.cond = s.cond ∨ ∃ d, dest = some d ∧ t.cond = condOf (t.reg d)

theorem condKeptOrSet.legal {dest : Option RegNum} {s t : State} (h : condKeptOrSet dest s t)
    (hs : condLegal s.cond) : condLegal t.cond := by
  rcases h with hkept | ⟨d, -, hset⟩
  · rwa [hkept]
  · rw [hset]
    exact condLegal_condOf _

variable {s t u : State} {a w : Word}

/-! ### The shared operations -/

/-- A result write sets COND from the register it writes, whatever came before it. -/
theorem condKeptOrSet_setReg (s u : State) (dr : RegNum) (v : Word) :
    condKeptOrSet (some dr) s ((u.setReg dr v).setCond (condOf v)) :=
  .inr ⟨dr, rfl, by simp⟩

theorem State.memRead_value_cond (h : s.memRead a = .value w u) : u.cond = s.cond := by
  rcases s.memRead_cases a with ⟨-, e⟩ | ⟨-, -, e⟩ | ⟨-, b, rest, -, e⟩ | ⟨-, rest, -, e⟩ <;>
    cases h.symm.trans e <;> rfl

theorem State.memRead_inputFailure_cond (h : s.memRead a = .inputFailure u) : u.cond = s.cond := by
  rcases s.memRead_cases a with ⟨-, e⟩ | ⟨-, -, e⟩ | ⟨-, b, rest, -, e⟩ | ⟨-, rest, -, e⟩ <;>
    cases h.symm.trans e
  rfl

theorem State.fetch_value_cond (h : s.fetch = .value w u) : u.cond = s.cond :=
  State.memRead_value_cond (s := s.setPc (s.pc + 1)) h

theorem State.fetch_inputFailure_cond (h : s.fetch = .inputFailure u) : u.cond = s.cond :=
  State.memRead_inputFailure_cond (s := s.setPc (s.pc + 1)) h

/-- A load sets COND from DR; the fault of its read leaves COND. -/
theorem State.loadFrom_cond {dr : RegNum} {ir : Word} (h : s.loadFrom dr a ir = .next t) :
    condKeptOrSet (some dr) s t := by
  rcases s.loadFrom_cases dr a ir with ⟨w, u, -, e⟩ | ⟨u, hu, e⟩ <;> cases h.symm.trans e
  · exact condKeptOrSet_setReg s u dr w
  · have hcond : u.cond = s.cond := State.memRead_inputFailure_cond hu
    exact .inl hcond

/-- Writing a list of events leaves COND, whether or not an output fails, if what follows does. -/
theorem State.emitAll_conclude_cond {es : List Event} {ir v : Word}
    {k : State → Host.Outcome State Fault Refusal} (hk : ∀ u t, k u = .next t → t.cond = u.cond)
    (h : (s.emitAll es).conclude ir v k = .next t) : t.cond = s.cond := by
  rcases s.emitAll_conclude_cases es ir v k with ⟨-, e⟩ | ⟨n, -, -, -, e⟩
  · exact hk (s.afterOutput es.length es) t (e.symm.trans h)
  · cases h.symm.trans e
    rfl

/-- A string routine leaves COND, whether or not an output fails. -/
theorem State.outString_conclude_cond {f : Word → List Byte} {p ir v : Word}
    (h : ((State.outString f Config.memorySize p s).andThen State.flush).conclude ir v .next = .next t) :
    t.cond = s.cond := by
  rcases s.outString_conclude_cases f p ir v with ⟨n, bs, -, e⟩ | ⟨n, bs, e⟩ | ⟨-, e⟩ <;>
    cases h.symm.trans e <;> rfl

/-! ### The instructions whose meaning has several outcomes -/

theorem execBr_cond {mask : BitVec 3} {off : BitVec 9} (h : execBr mask off s = .next t) :
    t.cond = s.cond := by
  unfold execBr at h
  split at h <;> cases h <;> rfl

theorem execLdi_cond {dr : RegNum} {off : BitVec 9} (h : execLdi dr off s = .next t) :
    condKeptOrSet (some dr) s t := by
  rcases execLdi_cases s dr off with ⟨p, u, w, v, -, -, e⟩ | ⟨p, u, v, hu, hv, e⟩ | ⟨u, hu, e⟩ <;>
    cases h.symm.trans e
  · exact condKeptOrSet_setReg s v dr w
  · have hcond : v.cond = s.cond := (State.memRead_inputFailure_cond hv).trans (State.memRead_value_cond hu)
    exact .inl hcond
  · have hcond : u.cond = s.cond := State.memRead_inputFailure_cond hu
    exact .inl hcond

theorem execSti_cond {sr : RegNum} {off : BitVec 9} (h : execSti sr off s = .next t) :
    t.cond = s.cond := by
  rcases execSti_cases s sr off with ⟨p, u, hu, e⟩ | ⟨u, hu, e⟩ <;> cases h.symm.trans e
  · have hcond : u.cond = s.cond := State.memRead_value_cond hu
    exact hcond
  · have hcond : u.cond = s.cond := State.memRead_inputFailure_cond hu
    exact hcond

theorem execTrapGetc_cond {x : BitVec 4} (h : execTrapGetc x s = .next t) :
    condKeptOrSet (some 0) s t := by
  rcases execTrapGetc_cases s x with ⟨b, rest, -, e⟩ | ⟨rest, -, e⟩ | ⟨-, e⟩ <;> cases h.symm.trans e
  · exact condKeptOrSet_setReg s _ 0 _
  · exact .inl rfl
  · exact .inl rfl

theorem execTrapIn_cond {x : BitVec 4} (h : execTrapIn x s = .next t) :
    condKeptOrSet (some 0) s t := by
  rcases execTrapIn_cases s x with
    ⟨b, rest, -, e⟩ | ⟨n, -, e⟩ | ⟨b, rest, n, -, -, e⟩ | ⟨rest, -, e⟩ | ⟨-, e⟩ <;> cases h.symm.trans e
  · exact condKeptOrSet_setReg s _ 0 _
  · exact .inl rfl
  · exact .inl rfl
  · exact .inl rfl
  · exact .inl rfl

theorem execTrapOut_cond {x : BitVec 4} (h : execTrapOut x s = .next t) : t.cond = s.cond := by
  rw [execTrapOut_eq] at h
  exact State.emitAll_conclude_cond (s := s.trapEntry) (fun u t hk => by cases hk; rfl) h

theorem execTrapHalt_cond {x : BitVec 4} (h : execTrapHalt x s = .next t) : t.cond = s.cond := by
  rw [execTrapHalt_eq] at h
  exact State.emitAll_conclude_cond (s := s.trapEntry) (fun u t hk => by cases hk; rfl) h

/-! ### Every instruction, and the step -/

/-- An instruction keeps COND, or sets it from the register R28 names for it. -/
theorem exec_cond {i : Instr} (h : exec i s = .next t) : condKeptOrSet i.flagDest s t := by
  cases i with
  | add dr | addImm dr | and dr | andImm dr | not dr | lea dr =>
    cases h
    rw [State.writeResult_eq]
    exact condKeptOrSet_setReg s s dr _
  | ld | ldr => exact State.loadFrom_cond h
  | ldi => exact execLdi_cond h
  | trapGetc => exact execTrapGetc_cond h
  | trapIn => exact execTrapIn_cond h
  | st | str | jsr | jsrr | jmp | ret | rti | reserved | trapUnknown =>
    cases h
    exact .inl rfl
  | br => exact .inl (execBr_cond h)
  | sti => exact .inl (execSti_cond h)
  | trapOut => exact .inl (execTrapOut_cond h)
  | trapHalt => exact .inl (execTrapHalt_cond h)
  | trapPuts | trapPutsp => exact .inl (State.outString_conclude_cond (s := s.trapEntry) h)

theorem step_keeps_condLegal (hs : condLegal s.cond) (h : step s = .next t) : condLegal t.cond := by
  rcases step_cases s with ⟨-, e⟩ | ⟨-, e⟩ | ⟨-, w, u, hu, e⟩ | ⟨-, u, hu, e⟩
  · cases h.symm.trans e
  · cases h.symm.trans e
  · have hcond : u.cond = s.cond := State.fetch_value_cond hu
    exact (exec_cond (e.symm.trans h)).legal (hcond ▸ hs)
  · have hcond : u.cond = s.cond := State.fetch_inputFailure_cond hu
    cases h.symm.trans e
    exact hcond ▸ hs

/-- Settles O47: ZRO at reset (R33); a step keeps COND or sets it from a register (R28). -/
theorem condAlwaysLegal : Obligations.CondAlwaysLegal :=
  ⟨.inr (.inl rfl), fun _ _ => step_keeps_condLegal⟩

end Sys2Proof.Machine
end

section
/-! SUPPORT. MemWrite (R51): the cell it sets, and its frame. -/

namespace Sys2Proof.Machine

/-- R51: MemWrite is the plain store the statements about stores speak of, at KBSR and KBDR too. -/
theorem State.storeWritten_memWrite (s : State) (a v : Word) : storeWritten s (s.memWrite a v) a v := by
  have hcell : (s.memWrite a v).memPlain a = v := s.memPlain_memWrite_self a v
  have hothers : sameMemoryBut (· = a) s (s.memWrite a v) := fun _ hb => s.memPlain_memWrite_ne v hb
  have hregs : sameRegs s (s.memWrite a v) := State.memWrite_reg s a v
  have hstatus : sameStatus s (s.memWrite a v) := ⟨s.memWrite_status a v, s.memWrite_fault a v⟩
  have hdevices : sameDevices s (s.memWrite a v) :=
    ⟨s.memWrite_input a v, ⟨s.memWrite_outAnswers a v, s.memWrite_trace a v⟩, s.memWrite_inputExt a v⟩
  exact ⟨hcell, hothers, hregs, s.memWrite_pc a v, s.memWrite_cond a v, hstatus, hdevices⟩

/-- Settles O9: MemWrite is a plain store, and the register file as a whole is untouched. -/
theorem memWriteRule : Obligations.MemWriteRule := fun s a v =>
  ⟨s.storeWritten_memWrite a v, s.memWrite_regs a v⟩

end Sys2Proof.Machine
end

section
/-! SUPPORT. The two ends of a fetch (R111): a MemRead and a fetch keep PC where they found it, and what the step does
with each. -/

namespace Sys2Proof.Machine

variable {s u : State} {a w : Word}

/-- A MemRead that gives a word leaves PC alone, a poll of the keyboard included. -/
theorem State.memRead_value_pc (h : s.memRead a = .value w u) : u.pc = s.pc := by
  rcases s.memRead_cases a with ⟨-, e⟩ | ⟨-, -, e⟩ | ⟨-, b, rest, -, e⟩ | ⟨-, rest, -, e⟩ <;>
    cases h.symm.trans e <;> rfl

/-- The only MemRead that fails is a poll answered Fail: it uses that answer up and records the Probe. -/
theorem State.memRead_inputFailure_inv (h : s.memRead a = .inputFailure u) :
    a = kbsr ∧ ∃ rest, s.input = .fail :: rest ∧ u = (s.setInput rest).log (.probe true) := by
  rcases s.memRead_cases a with ⟨-, e⟩ | ⟨-, -, e⟩ | ⟨-, b, rest, -, e⟩ | ⟨ha, rest, hi, e⟩ <;>
    cases h.symm.trans e
  exact ⟨ha, rest, hi, rfl⟩

theorem State.fetch_value_pc (h : s.fetch = .value w u) : u.pc = s.pc + 1 :=
  State.memRead_value_pc (s := s.setPc (s.pc + 1)) h

theorem step_of_fetch_value (hr : s.status = .running) (hf : s.fetch = .value w u) :
    step s = exec (decode w) u := by
  simp only [step, hr, hf]

theorem step_of_fetch_inputFailure (hr : s.status = .running) (hf : s.fetch = .inputFailure u) :
    step s = .next u.fetchFailed := by
  simp only [step, hr, hf]

/-- Settles O13: the step is its fetch and then the dispatch, or the fault of a fetch that changed only PC and the
devices. -/
theorem stepFetchesThenDispatches : Obligations.StepFetchesThenDispatches := by
  intro s hr
  refine ⟨fun w u hf => ⟨step_of_fetch_value hr hf, State.fetch_value_pc hf⟩, fun u hf => ?_⟩
  have hstep : step s = .next u.fetchFailed := step_of_fetch_inputFailure hr hf
  obtain ⟨-, rest, -, rfl⟩ := State.memRead_inputFailure_inv hf
  exact ⟨_, hstep, rfl, rfl, rfl, rfl, rfl, rfl⟩

end Sys2Proof.Machine
end

section
/-! SUPPORT. The operate instructions (R131 to R135): each is one result write, and what a result write leaves. -/

namespace Sys2Proof.Machine

variable {w : Word} {s : State} {i : Instr} {dr : RegNum} {v : Word}

/-- R27, R28: a result write changes DR and COND, to the value and its class, and nothing else. -/
theorem State.resultWritten_writeResult (s : State) (dr : RegNum) (v : Word) :
    resultWritten s (s.writeResult dr v) dr v := by
  rw [State.writeResult_eq]
  have hdest : ((s.setReg dr v).setCond (condOf v)).reg dr = v := s.reg_setReg_self dr v
  have hothers : sameRegsBut (· = dr) s ((s.setReg dr v).setCond (condOf v)) :=
    fun _ hq => s.reg_setReg_ne v hq
  exact ⟨hdest, rfl, hothers, rfl, ⟨rfl, rfl⟩, fun _ => rfl, ⟨rfl, ⟨rfl, rfl⟩, rfl⟩⟩

/-! ### The value each instruction writes; the sources are read in the state before the write -/

theorem exec_add_eq_writeResult (d a b : RegNum) (x : BitVec 2) (s : State) :
    exec (.add d a b x) s = .next (s.writeResult d (s.reg a + s.reg b)) := rfl

theorem exec_addImm_eq_writeResult (d a : RegNum) (imm : BitVec 5) (s : State) :
    exec (.addImm d a imm) s = .next (s.writeResult d (s.reg a + sext imm)) := rfl

theorem exec_and_eq_writeResult (d a b : RegNum) (x : BitVec 2) (s : State) :
    exec (.and d a b x) s = .next (s.writeResult d (s.reg a &&& s.reg b)) := rfl

theorem exec_andImm_eq_writeResult (d a : RegNum) (imm : BitVec 5) (s : State) :
    exec (.andImm d a imm) s = .next (s.writeResult d (s.reg a &&& sext imm)) := rfl

theorem exec_not_eq_writeResult (d a : RegNum) (x : BitVec 6) (s : State) :
    exec (.not d a x) s = .next (s.writeResult d (~~~ s.reg a)) := rfl

/-! ### From the word to the result -/

/-- A word whose instruction is a result write completes with that result. -/
theorem resultWritten_of_decode (hdecode : decode w = i) (hexec : exec i s = .next (s.writeResult dr v)) :
    decode w = i ∧ ∃ t, exec (decode w) s = .next t ∧ resultWritten s t dr v :=
  ⟨hdecode, s.writeResult dr v, hdecode ▸ hexec, s.resultWritten_writeResult dr v⟩

/-- Settles O16: each row of ADD decodes to its instruction, which is the result write of the sum. -/
theorem addResult : Obligations.AddResult := fun _ s =>
  ⟨fun h => resultWritten_of_decode (decode_add h) (exec_add_eq_writeResult _ _ _ _ s),
   fun h => resultWritten_of_decode (decode_addImm h) (exec_addImm_eq_writeResult _ _ _ s)⟩

/-- Settles O17: each row of AND decodes to its instruction, which is the result write of the bitwise AND. -/
theorem andResult : Obligations.AndResult := fun _ s =>
  ⟨fun h => resultWritten_of_decode (decode_and h) (exec_and_eq_writeResult _ _ _ _ s),
   fun h => resultWritten_of_decode (decode_andImm h) (exec_andImm_eq_writeResult _ _ _ s)⟩

/-- Settles O18: a word of NOT's row decodes to NOT, which is the result write of the inverse. -/
theorem notResult : Obligations.NotResult := fun _ s h =>
  resultWritten_of_decode (decode_not h) (exec_not_eq_writeResult _ _ _ s)

end Sys2Proof.Machine
end

section
/-! SUPPORT. LEA, ST and STR (R153, R154, R156): one result write or one MemWrite, and no MemRead. -/

namespace Sys2Proof.Machine

variable {w : Word} {s : State} {i : Instr} {a v : Word}

/-! ### The write each instruction is; the address and the stored register are read in the state before it -/

theorem exec_lea_eq_writeResult (dr : RegNum) (off : BitVec 9) (s : State) :
    exec (.lea dr off) s = .next (s.writeResult dr (s.pc + sext off)) := rfl

theorem exec_st_eq_memWrite (sr : RegNum) (off : BitVec 9) (s : State) :
    exec (.st sr off) s = .next (s.memWrite (s.pc + sext off) (s.reg sr)) := rfl

theorem exec_str_eq_memWrite (sr base : RegNum) (off : BitVec 6) (s : State) :
    exec (.str sr base off) s = .next (s.memWrite (s.reg base + sext off) (s.reg sr)) := rfl

/-! ### From the word to the write -/

/-- A word whose instruction is a MemWrite completes with that store. -/
theorem storeWritten_of_decode (hdecode : decode w = i) (hexec : exec i s = .next (s.memWrite a v)) :
    decode w = i ∧ ∃ t, exec (decode w) s = .next t ∧ storeWritten s t a v :=
  ⟨hdecode, s.memWrite a v, hdecode ▸ hexec, s.storeWritten_memWrite a v⟩

/-- Settles O22: a word of LEA's row decodes to LEA, which is the result write of the address. -/
theorem loadEffectiveAddressResult : Obligations.LoadEffectiveAddressResult := fun _ s h =>
  resultWritten_of_decode (decode_lea h) (exec_lea_eq_writeResult _ _ s)

/-- Settles O23: a word of ST's row decodes to ST, which is the plain store at the PC-relative address. -/
theorem storeDirectResult : Obligations.StoreDirectResult := fun _ s h =>
  storeWritten_of_decode (decode_st h) (exec_st_eq_memWrite _ _ s)

/-- Settles O25: a word of STR's row decodes to STR, which is the plain store at base plus offset. -/
theorem storeBaseOffsetResult : Obligations.StoreBaseOffsetResult := fun _ s h =>
  storeWritten_of_decode (decode_str h) (exec_str_eq_memWrite _ _ _ s)

end Sys2Proof.Machine
end

section
/-! SUPPORT. BR, JSR, JMP and RET (R180, R182, R185, R186): one write of PC, after the write of the link for JSR, and
what such a write leaves. -/

namespace Sys2Proof.Machine

variable {w : Word} {s t : State} {i : Instr} {link : Bool} {target : Word}

/-! ### What a write of PC leaves, with the link and without it -/

theorem State.jumped_setPc (s : State) (target : Word) : jumped s (s.setPc target) false target := by
  have hregs : sameRegsBut (fun r => false ∧ r = 7) s (s.setPc target) := fun q _ => s.setPc_reg target q
  exact ⟨rfl, nofun, hregs, rfl, ⟨rfl, rfl⟩, fun _ => rfl, ⟨rfl, ⟨rfl, rfl⟩, rfl⟩⟩

theorem State.jumped_link_setPc (s : State) (target : Word) :
    jumped s ((s.setReg 7 s.pc).setPc target) true target := by
  have hlink : ((s.setReg 7 s.pc).setPc target).reg 7 = s.pc := s.reg_setReg_self 7 s.pc
  have hothers : sameRegsBut (fun r => true ∧ r = 7) s ((s.setReg 7 s.pc).setPc target) :=
    fun _ hq => s.reg_setReg_ne s.pc fun h7 => hq ⟨rfl, h7⟩
  exact ⟨rfl, fun _ => hlink, hothers, rfl, ⟨rfl, rfl⟩, fun _ => rfl, ⟨rfl, ⟨rfl, rfl⟩, rfl⟩⟩

/-! ### The target of each instruction, read in the state after the fetch -/

theorem State.branchTaken_iff (s : State) (mask : BitVec 3) :
    s.branchTaken mask = true ↔ mask.setWidth 16 &&& s.cond ≠ 0 := bne_iff_ne

theorem exec_br_of_taken {mask : BitVec 3} (off : BitVec 9) (h : mask.setWidth 16 &&& s.cond ≠ 0) :
    exec (.br mask off) s = .next (s.setPc (s.pc + sext off)) :=
  if_pos ((s.branchTaken_iff mask).mpr h)

theorem exec_br_of_not_taken {mask : BitVec 3} (off : BitVec 9) (h : mask.setWidth 16 &&& s.cond = 0) :
    exec (.br mask off) s = .next s :=
  if_neg fun htaken => (s.branchTaken_iff mask).mp htaken h

/-- R182: the write of R7 does not reach the PC the offset is added to. -/
theorem exec_jsr_eq_link_setPc (off : BitVec 11) (s : State) :
    exec (.jsr off) s = .next ((s.setReg 7 s.pc).setPc (s.pc + sext off)) := rfl

theorem exec_jmp_eq_setPc (base : RegNum) (xHi : BitVec 3) (xLo : BitVec 6) (s : State) :
    exec (.jmp base xHi xLo) s = .next (s.setPc (s.reg base)) := rfl

theorem exec_ret_eq_setPc (xHi : BitVec 3) (xLo : BitVec 6) (s : State) :
    exec (.ret xHi xLo) s = .next (s.setPc (s.reg 7)) := rfl

/-! ### From the word to the jump -/

/-- A word whose instruction leads to a jumped state completes with that jump. -/
theorem jumped_of_decode (hdecode : decode w = i) (hexec : exec i s = .next t) (ht : jumped s t link target) :
    ∃ t, exec (decode w) s = .next t ∧ jumped s t link target :=
  ⟨t, hdecode ▸ hexec, ht⟩

/-- R185, R186: a word of opcode 1100 jumps to its BaseR, whether it decodes to JMP or (BaseR 7) to RET. -/
theorem jumped_baseR_of_opcode (s : State) (h : w &&& 0xF000 = 0xC000) :
    ∃ t, exec (decode w) s = .next t ∧ jumped s t false (s.reg (field8to6 w)) := by
  by_cases hb : field8to6 w = 7
  · rw [hb]
    exact jumped_of_decode (decode_ret_of_baseR h hb) (exec_ret_eq_setPc _ _ s) (s.jumped_setPc _)
  · exact jumped_of_decode (decode_jmp h hb) (exec_jmp_eq_setPc _ _ _ s) (s.jumped_setPc _)

/-- Settles O27: a word of BR's row decodes to BR, which is the PC-relative jump when its mask meets COND and keeps the
state when it does not. -/
theorem branchResult : Obligations.BranchResult := by
  intro w s h
  have hdecode := decode_br h
  refine ⟨hdecode, fun htaken => ?_, fun hnot => ?_⟩
  · exact jumped_of_decode hdecode (exec_br_of_taken _ htaken) (s.jumped_setPc _)
  · rw [hdecode]
    exact exec_br_of_not_taken _ hnot

/-- Settles O29: a word of JSR's row decodes to JSR, which links R7 and jumps relative to the incremented PC. -/
theorem jsrResult : Obligations.JsrResult := fun _ s h =>
  ⟨decode_jsr h, jumped_of_decode (decode_jsr h) (exec_jsr_eq_link_setPc _ s) (s.jumped_link_setPc _)⟩

/-- Settles O31: a word of opcode 1100 jumps to its BaseR, and is JMP where BaseR is not 7. -/
theorem jmpResult : Obligations.JmpResult := fun _ s h =>
  ⟨decode_jmp h, jumped_baseR_of_opcode s h⟩

/-- Settles O32: a word that matches RET's mask decodes to RET, which jumps to R7. -/
theorem retResult : Obligations.RetResult := fun _ s h =>
  ⟨decode_ret h, jumped_of_decode (decode_ret h) (exec_ret_eq_setPc _ _ s) (s.jumped_setPc _)⟩

end Sys2Proof.Machine
end

section
/-! SUPPORT. The fields of a word (R80, R81): what a field of a placed field is, and that the fields of a format make
up the word. -/

namespace Sys2Proof

/-! ### A field of a placed field -/

theorem getLsbD_place {n : Nat} (x : BitVec n) (lo i : Nat) (hi : i < 16) :
    (place x lo).getLsbD i = (decide (lo ≤ i) && x.getLsbD (i - lo)) := by
  by_cases hlo : i < lo
  · simp [place, hi, hlo]
  · simp [place, hi, hlo, Nat.le_of_not_lt hlo]

theorem extractLsb'_place_self {n lo : Nat} (x : BitVec n) (h : lo + n ≤ 16) :
    (place x lo).extractLsb' lo n = x := by
  apply BitVec.eq_of_getLsbD_eq
  intro i hi
  rw [BitVec.getLsbD_extractLsb', getLsbD_place x lo (lo + i) (by omega)]
  simp [hi]

theorem extractLsb'_place_below {m lo lo' n : Nat} (x : BitVec m) (h : lo' + m ≤ lo) (hn : lo + n ≤ 16) :
    (place x lo').extractLsb' lo n = 0#n := by
  apply BitVec.eq_of_getLsbD_eq
  intro i hi
  rw [BitVec.getLsbD_extractLsb', getLsbD_place x lo' (lo + i) (by omega), x.getLsbD_of_ge _ (by omega)]
  simp

theorem extractLsb'_place_above {m lo lo' n : Nat} (x : BitVec m) (h : lo + n ≤ lo') (hn : lo + n ≤ 16) :
    (place x lo').extractLsb' lo n = 0#n := by
  apply BitVec.eq_of_getLsbD_eq
  intro i hi
  rw [BitVec.getLsbD_extractLsb', getLsbD_place x lo' (lo + i) (by omega)]
  simp [show ¬ lo' ≤ lo + i by omega]

/-- A field put back at its place is the word under the field's mask. -/
theorem place_extractLsb' (w : Word) (lo n : Nat) :
    place (w.extractLsb' lo n) lo = w &&& place (BitVec.allOnes n) lo := by
  apply BitVec.eq_of_getLsbD_eq
  intro i hi
  rw [BitVec.getLsbD_and, getLsbD_place _ lo i hi, getLsbD_place _ lo i hi, BitVec.getLsbD_extractLsb',
    BitVec.getLsbD_allOnes]
  by_cases hlo : lo ≤ i
  · simp [hlo, Bool.and_comm]
  · simp [hlo]

/-- A field that the mask covers is the match's. -/
theorem extractLsb'_of_matches {w m v : Word} {lo n : Nat} (hm : m.extractLsb' lo n = BitVec.allOnes n)
    (h : w &&& m = v) : w.extractLsb' lo n = v.extractLsb' lo n := by
  rw [← h, BitVec.extractLsb'_and, hm, BitVec.and_allOnes]

/-- A word under the mask of two of its fields. -/
theorem matches_of_extractLsb' {w : Word} {lo n lo' n' : Nat} {a : BitVec n} {b : BitVec n'}
    (ha : w.extractLsb' lo n = a) (hb : w.extractLsb' lo' n' = b) :
    w &&& (place (BitVec.allOnes n) lo ||| place (BitVec.allOnes n') lo') = place a lo ||| place b lo' := by
  rw [BitVec.and_or_distrib_left, ← place_extractLsb', ← place_extractLsb', ha, hb]

theorem extractLsb'_one (w : Word) (i : Nat) : w.extractLsb' i 1 = BitVec.ofBool (w.getLsbD i) := by
  apply BitVec.eq_of_getLsbD_eq
  intro j hj
  obtain rfl : j = 0 := by omega
  simp

/-! ### The formats of R82: the fields of each make up the word -/

section
variable {w : Word} {op : BitVec 4} {bit : BitVec 1}

theorem place_format_3_9 (hop : opcodeField w = op) :
    place op 12 ||| place (field11to9 w) 9 ||| place (field8to0 w) 0 = w := by
  simp only [← hop, opcodeField, field11to9, field8to0, place_extractLsb',
    ← BitVec.and_or_distrib_left]
  exact BitVec.and_allOnes

theorem place_format_3_3_6 {base : RegNum} (hop : opcodeField w = op) (hbase : field8to6 w = base) :
    place op 12 ||| place (field11to9 w) 9 ||| place base 6 ||| place (field5to0 w) 0 = w := by
  simp only [← hop, ← hbase, opcodeField, field11to9, field8to6, field5to0, place_extractLsb',
    ← BitVec.and_or_distrib_left]
  exact BitVec.and_allOnes

theorem place_format_3_3_1_2_3 (hop : opcodeField w = op) (hbit : w.extractLsb' 5 1 = bit) :
    place op 12 ||| place (field11to9 w) 9 ||| place (field8to6 w) 6 ||| place bit 5 ||| place (field4to3 w) 3 |||
      place (field2to0 w) 0 = w := by
  simp only [← hop, ← hbit, opcodeField, field11to9, field8to6, field4to3, field2to0, place_extractLsb',
    ← BitVec.and_or_distrib_left]
  exact BitVec.and_allOnes

theorem place_format_3_3_1_5 (hop : opcodeField w = op) (hbit : w.extractLsb' 5 1 = bit) :
    place op 12 ||| place (field11to9 w) 9 ||| place (field8to6 w) 6 ||| place bit 5 ||| place (field4to0 w) 0 = w := by
  simp only [← hop, ← hbit, opcodeField, field11to9, field8to6, field4to0, place_extractLsb',
    ← BitVec.and_or_distrib_left]
  exact BitVec.and_allOnes

theorem place_format_1_11 (hop : opcodeField w = op) (hbit : w.extractLsb' 11 1 = bit) :
    place op 12 ||| place bit 11 ||| place (field10to0 w) 0 = w := by
  simp only [← hop, ← hbit, opcodeField, field10to0, place_extractLsb',
    ← BitVec.and_or_distrib_left]
  exact BitVec.and_allOnes

theorem place_format_1_2_3_6 (hop : opcodeField w = op) (hbit : w.extractLsb' 11 1 = bit) :
    place op 12 ||| place bit 11 ||| place (field10to9 w) 9 ||| place (field8to6 w) 6 |||
      place (field5to0 w) 0 = w := by
  simp only [← hop, ← hbit, opcodeField, field10to9, field8to6, field5to0, place_extractLsb',
    ← BitVec.and_or_distrib_left]
  exact BitVec.and_allOnes

theorem place_format_12 (hop : opcodeField w = op) :
    place op 12 ||| place (field11to0 w) 0 = w := by
  simp only [← hop, opcodeField, field11to0, place_extractLsb',
    ← BitVec.and_or_distrib_left]
  exact BitVec.and_allOnes

theorem place_format_4_8 {vector : BitVec 8} (hop : opcodeField w = op) (hvector : field7to0 w = vector) :
    place op 12 ||| place (field11to8 w) 8 ||| place vector 0 = w := by
  simp only [← hop, ← hvector, opcodeField, field11to8, field7to0, place_extractLsb',
    ← BitVec.and_or_distrib_left]
  exact BitVec.and_allOnes

end

/-! ### The instruction a word reads as -/

/-- The instruction of the same row with its fields taken from the word `w`. -/
def Instr.reread (w : Word) : Instr → Instr
  | .br _ _ => .br (field11to9 w) (field8to0 w)
  | .add _ _ _ _ => .add (field11to9 w) (field8to6 w) (field2to0 w) (field4to3 w)
  | .addImm _ _ _ => .addImm (field11to9 w) (field8to6 w) (field4to0 w)
  | .ld _ _ => .ld (field11to9 w) (field8to0 w)
  | .st _ _ => .st (field11to9 w) (field8to0 w)
  | .jsr _ => .jsr (field10to0 w)
  | .jsrr _ _ _ => .jsrr (field8to6 w) (field10to9 w) (field5to0 w)
  | .and _ _ _ _ => .and (field11to9 w) (field8to6 w) (field2to0 w) (field4to3 w)
  | .andImm _ _ _ => .andImm (field11to9 w) (field8to6 w) (field4to0 w)
  | .ldr _ _ _ => .ldr (field11to9 w) (field8to6 w) (field5to0 w)
  | .str _ _ _ => .str (field11to9 w) (field8to6 w) (field5to0 w)
  | .rti _ => .rti (field11to0 w)
  | .not _ _ _ => .not (field11to9 w) (field8to6 w) (field5to0 w)
  | .ldi _ _ => .ldi (field11to9 w) (field8to0 w)
  | .sti _ _ => .sti (field11to9 w) (field8to0 w)
  | .jmp _ _ _ => .jmp (field8to6 w) (field11to9 w) (field5to0 w)
  | .ret _ _ => .ret (field11to9 w) (field5to0 w)
  | .reserved _ => .reserved (field11to0 w)
  | .lea _ _ => .lea (field11to9 w) (field8to0 w)
  | .trapGetc _ => .trapGetc (field11to8 w)
  | .trapOut _ => .trapOut (field11to8 w)
  | .trapPuts _ => .trapPuts (field11to8 w)
  | .trapIn _ => .trapIn (field11to8 w)
  | .trapPutsp _ => .trapPutsp (field11to8 w)
  | .trapHalt _ => .trapHalt (field11to8 w)
  | .trapUnknown _ _ => .trapUnknown (field11to8 w) (field7to0 w)

/-- The word matches the instruction's row of the opcode table, and holds its operands in its fields. -/
structure ReadsAs (w : Word) (i : Instr) : Prop where
  row : w &&& i.tableRow.1 = i.tableRow.2
  fields : i.reread w = i
  wellFormed : i.wellFormed = true

variable {w : Word} {i : Instr}

/-- The decoder finds the one instruction a word reads as. -/
theorem ReadsAs.decode_eq (h : ReadsAs w i) : decode w = i := by
  obtain ⟨hrow, hfields, hwf⟩ := h
  rw [← hfields] at hwf ⊢
  cases i with
  | br => exact decode_br hrow
  | add => exact decode_add hrow
  | addImm => exact decode_addImm hrow
  | ld => exact decode_ld hrow
  | st => exact decode_st hrow
  | jsr => exact decode_jsr hrow
  | jsrr => exact decode_jsrr hrow
  | and => exact decode_and hrow
  | andImm => exact decode_andImm hrow
  | ldr => exact decode_ldr hrow
  | str => exact decode_str hrow
  | rti => exact decode_rti hrow
  | not => exact decode_not hrow
  | ldi => exact decode_ldi hrow
  | sti => exact decode_sti hrow
  | jmp => exact decode_jmp hrow (bne_iff_ne.mp hwf)
  | ret => exact decode_ret hrow
  | reserved => exact decode_reserved hrow
  | lea => exact decode_lea hrow
  | trapGetc => exact decode_trapGetc hrow
  | trapOut => exact decode_trapOut hrow
  | trapPuts => exact decode_trapPuts hrow
  | trapIn => exact decode_trapIn hrow
  | trapPutsp => exact decode_trapPutsp hrow
  | trapHalt => exact decode_trapHalt hrow
  | trapUnknown => exact decode_trapUnknown hrow ((Bool.not_eq_true' _).mp hwf)

/-! ### Encoding -/

theorem encode_matches_row (i : Instr) : encode i &&& i.tableRow.1 = i.tableRow.2 := by
  cases i with
  | br => exact Laws.TableRow.br _ _
  | add => exact Laws.TableRow.add _ _ _ _
  | addImm => exact Laws.TableRow.addImm _ _ _
  | ld => exact Laws.TableRow.ld _ _
  | st => exact Laws.TableRow.st _ _
  | jsr => exact Laws.TableRow.jsr _
  | jsrr => exact Laws.TableRow.jsrr _ _ _
  | and => exact Laws.TableRow.and _ _ _ _
  | andImm => exact Laws.TableRow.andImm _ _ _
  | ldr => exact Laws.TableRow.ldr _ _ _
  | str => exact Laws.TableRow.str _ _ _
  | rti => exact Laws.TableRow.rti _
  | not => exact Laws.TableRow.not _ _ _
  | ldi => exact Laws.TableRow.ldi _ _
  | sti => exact Laws.TableRow.sti _ _
  | jmp => exact Laws.TableRow.jmp _ _ _
  | ret => exact Laws.TableRow.ret _ _
  | reserved => exact Laws.TableRow.reserved _
  | lea => exact Laws.TableRow.lea _ _
  | trapGetc => exact Laws.TableRow.trapGetc _
  | trapOut => exact Laws.TableRow.trapOut _
  | trapPuts => exact Laws.TableRow.trapPuts _
  | trapIn => exact Laws.TableRow.trapIn _
  | trapPutsp => exact Laws.TableRow.trapPutsp _
  | trapHalt => exact Laws.TableRow.trapHalt _
  | trapUnknown => exact Laws.TableRow.trapUnknown _ _

/-- The word of an instruction holds each operand in its field: no two fields of a format overlap. -/
theorem reread_encode (i : Instr) : i.reread (encode i) = i := by
  cases i <;>
    simp [Instr.reread, encode, field11to9, field8to6, field2to0, field4to0, field5to0, field8to0, field10to0,
      field7to0, field4to3, field10to9, field11to8, field11to0, BitVec.extractLsb'_or, extractLsb'_place_self,
      extractLsb'_place_below, extractLsb'_place_above]

theorem readsAs_encode (h : i.wellFormed = true) : ReadsAs (encode i) i :=
  ⟨encode_matches_row i, reread_encode i, h⟩

/-- Settles O1: the word of `i` reads as `i`, and the decoder finds what a word reads as. -/
theorem encodeThenDecode : Obligations.EncodeThenDecode := fun _ h => (readsAs_encode h).decode_eq

/-! ### Decoding is total -/

theorem ReadsAs.encode_eq (h : ReadsAs w i) : encode i = w := by
  obtain ⟨hrow, hfields, -⟩ := h
  rw [← hfields]
  cases i <;> dsimp only [Instr.tableRow] at hrow
  case br | ld | st | ldi | sti | lea =>
    exact place_format_3_9 (opcodeField_of_matches (by decide) hrow)
  case add | and =>
    exact place_format_3_3_1_2_3 (opcodeField_of_matches (by decide) hrow) (extractLsb'_of_matches (by decide) hrow)
  case addImm | andImm =>
    exact place_format_3_3_1_5 (opcodeField_of_matches (by decide) hrow) (extractLsb'_of_matches (by decide) hrow)
  case jsr =>
    exact place_format_1_11 (opcodeField_of_matches (by decide) hrow) (extractLsb'_of_matches (by decide) hrow)
  case jsrr =>
    exact place_format_1_2_3_6 (opcodeField_of_matches (by decide) hrow) (extractLsb'_of_matches (by decide) hrow)
  case ldr | str | not | jmp =>
    exact place_format_3_3_6 (opcodeField_of_matches (by decide) hrow) rfl
  case rti | reserved =>
    exact place_format_12 (opcodeField_of_matches (by decide) hrow)
  case ret =>
    exact place_format_3_3_6 (opcodeField_of_matches (by decide) hrow) (field8to6_of_matches (by decide) hrow)
  case trapGetc | trapOut | trapPuts | trapIn | trapPutsp | trapHalt =>
    exact place_format_4_8 (opcodeField_of_matches (by decide) hrow) (field7to0_of_matches (by decide) hrow)
  case trapUnknown =>
    exact place_format_4_8 (opcodeField_of_matches (by decide) hrow) rfl

theorem knownTrapVector_iff (v : BitVec 8) :
    knownTrapVector v = true ↔ v = 0x20 ∨ v = 0x21 ∨ v = 0x22 ∨ v = 0x23 ∨ v = 0x24 ∨ v = 0x25 := by
  simp only [knownTrapVector, Bool.and_eq_true, decide_eq_true_eq]
  bv_omega

/-! A word matches a row whose mask covers the opcode, and perhaps one more field, when those fields are the match's. -/

section
variable {op : BitVec 4} {v : Word}

theorem opcode_row (h : opcodeField w = op) (hv : place op 12 = v) : w &&& 0xF000 = v :=
  hv ▸ h ▸ (place_extractLsb' w 12 4).symm

theorem opcode_bit5_row {b : Bool} (h : opcodeField w = op) (hb : w.getLsbD 5 = b)
    (hv : place op 12 ||| place (BitVec.ofBool b) 5 = v) : w &&& 0xF020 = v :=
  hv ▸ matches_of_extractLsb' h ((extractLsb'_one w 5).trans (congrArg BitVec.ofBool hb))

theorem opcode_bit11_row {b : Bool} (h : opcodeField w = op) (hb : w.getLsbD 11 = b)
    (hv : place op 12 ||| place (BitVec.ofBool b) 11 = v) : w &&& 0xF800 = v :=
  hv ▸ matches_of_extractLsb' h ((extractLsb'_one w 11).trans (congrArg BitVec.ofBool hb))

theorem opcode_baseR_row {base : RegNum} (h : opcodeField w = op) (hb : field8to6 w = base)
    (hv : place op 12 ||| place base 6 = v) : w &&& 0xF1C0 = v :=
  hv ▸ matches_of_extractLsb' h hb

theorem opcode_vector_row {vector : BitVec 8} (h : opcodeField w = op) (hvector : field7to0 w = vector)
    (hv : place op 12 ||| place vector 0 = v) : w &&& 0xF0FF = v :=
  hv ▸ matches_of_extractLsb' h hvector

end

theorem ReadsAs.of_row {m v : Word} (hi : i.tableRow = (m, v)) (h : w &&& m = v) (hfields : i.reread w = i)
    (hwf : i.wellFormed = true) : ReadsAs w i :=
  ⟨by rw [hi, h], hfields, hwf⟩

theorem decodeTrap_readsAs (h : opcodeField w = 0xF#4) : ReadsAs w (decodeTrap w) := by
  unfold decodeTrap
  split
  case h_1 hv | h_2 hv | h_3 hv | h_4 hv | h_5 hv | h_6 hv =>
    exact .of_row rfl (opcode_vector_row h hv (by decide)) rfl rfl
  case h_7 h0 h1 h2 h3 h4 h5 =>
    have hv : knownTrapVector (field7to0 w) = false := by
      rw [Bool.eq_false_iff, ne_eq, knownTrapVector_iff]
      rintro (e | e | e | e | e | e)
      exacts [h0 e, h1 e, h2 e, h3 e, h4 e, h5 e]
    exact .of_row rfl (opcode_row h (by decide)) rfl ((Bool.not_eq_true' _).mpr hv)

/-- No word is undecodable (R89): every word reads as the instruction it decodes to. -/
theorem decode_readsAs (w : Word) : ReadsAs w (decode w) := by
  unfold decode
  split
  case h_1 h | h_3 h | h_4 h | h_7 h | h_8 h | h_9 h | h_10 h | h_11 h | h_12 h | h_14 h | h_15 h =>
    exact .of_row rfl (opcode_row h (by decide)) rfl rfl
  case h_2 h | h_6 h =>
    split
    case isTrue hb => exact .of_row rfl (opcode_bit5_row h hb (by decide)) rfl rfl
    case isFalse hb => exact .of_row rfl (opcode_bit5_row h (Bool.eq_false_iff.mpr hb) (by decide)) rfl rfl
  case h_5 h =>
    split
    case isTrue hb => exact .of_row rfl (opcode_bit11_row h hb (by decide)) rfl rfl
    case isFalse hb => exact .of_row rfl (opcode_bit11_row h (Bool.eq_false_iff.mpr hb) (by decide)) rfl rfl
  case h_13 h =>
    split
    case isTrue hb => exact .of_row rfl (opcode_baseR_row h hb (by decide)) rfl rfl
    case isFalse hb => exact .of_row rfl (opcode_row h (by decide)) rfl (bne_iff_ne.mpr hb)
  case h_16 =>
    -- the other fifteen values of the opcode are excluded
    have hop : opcodeField w = 0xF#4 := by
      generalize opcodeField w = op at *
      revert op
      decide
    exact decodeTrap_readsAs hop

/-- Settles O2: every word reads as what it decodes to, and what a word reads as encodes to it. -/
theorem decodeThenEncode : Obligations.DecodeThenEncode := fun w =>
  ⟨(decode_readsAs w).wellFormed, (decode_readsAs w).encode_eq⟩

end Sys2Proof
end

section
/-! SUPPORT. The opcode table and the ignored bits (R82, R87). -/

namespace Sys2Proof

/-- Settles O3: a word matches the row it decodes to; the narrower rows are RET's and the six known vectors'. -/
theorem decodedRowMatchesWord : Obligations.DecodedRowMatchesWord := by
  refine fun w => ⟨(decode_readsAs w).row, fun hret => by rw [decode_ret hret]; rfl, fun htrap hknown => ?_⟩
  have hop : opcodeField w = 0xF#4 := opcodeField_of_matches (by decide) htrap
  have hrow : ∀ v, field7to0 w = v → w &&& 0xF0FF = place 0xF#4 12 ||| place v 0 := fun _ hv =>
    opcode_vector_row hop hv rfl
  rcases (knownTrapVector_iff _).mp hknown with hv | hv | hv | hv | hv | hv <;> rw [hv]
  · rw [decode_trapGetc (hrow _ hv)]; rfl
  · rw [decode_trapOut (hrow _ hv)]; rfl
  · rw [decode_trapPuts (hrow _ hv)]; rfl
  · rw [decode_trapIn (hrow _ hv)]; rfl
  · rw [decode_trapPutsp (hrow _ hv)]; rfl
  · rw [decode_trapHalt (hrow _ hv)]; rfl

/-- Settles O4: the nine words of the spec, decoded. -/
theorem specWordsDecode : Obligations.SpecWordsDecode := by
  unfold Obligations.SpecWordsDecode
  decide

/-! ### Words that agree but for the ignored bits -/

/-- The instruction with the operands it ignores made 0. -/
def Instr.clearIgnored : Instr → Instr
  | .add dr sr1 sr2 _ => .add dr sr1 sr2 0
  | .and dr sr1 sr2 _ => .and dr sr1 sr2 0
  | .not dr sr1 _ => .not dr sr1 0
  | .jsrr base _ _ => .jsrr base 0 0
  | .jmp base _ _ => .jmp base 0 0
  | .ret _ _ => .ret 0 0
  | .rti _ => .rti 0
  | .reserved _ => .reserved 0
  | .trapGetc _ => .trapGetc 0
  | .trapOut _ => .trapOut 0
  | .trapPuts _ => .trapPuts 0
  | .trapIn _ => .trapIn 0
  | .trapPutsp _ => .trapPutsp 0
  | .trapHalt _ => .trapHalt 0
  | .trapUnknown _ v => .trapUnknown 0 v
  | i => i

variable {w w' : Word} {i : Instr}

/-- R87: the fields an instruction uses lie outside the bits it ignores. -/
theorem clearIgnored_reread_congr (h : w &&& ~~~i.ignoredBits = w' &&& ~~~i.ignoredBits) :
    (i.reread w).clearIgnored = (i.reread w').clearIgnored := by
  have hfield : ∀ x lo n, i.ignoredBits = x → (~~~x).extractLsb' lo n = BitVec.allOnes n →
      w.extractLsb' lo n = w'.extractLsb' lo n := by
    rintro _ lo n rfl hx
    exact (extractLsb'_of_matches hx h).trans (extractLsb'_of_matches hx rfl).symm
  cases i with
  | add | and =>
    have hdr : field11to9 w = field11to9 w' := hfield 0x0018 _ _ rfl (by decide)
    have hsr1 : field8to6 w = field8to6 w' := hfield 0x0018 _ _ rfl (by decide)
    have hsr2 : field2to0 w = field2to0 w' := hfield 0x0018 _ _ rfl (by decide)
    simp only [Instr.reread, Instr.clearIgnored, hdr, hsr1, hsr2]
  | not =>
    have hdr : field11to9 w = field11to9 w' := hfield 0x003F _ _ rfl (by decide)
    have hsr1 : field8to6 w = field8to6 w' := hfield 0x003F _ _ rfl (by decide)
    simp only [Instr.reread, Instr.clearIgnored, hdr, hsr1]
  | jsrr =>
    have hbase : field8to6 w = field8to6 w' := hfield 0x063F _ _ rfl (by decide)
    simp only [Instr.reread, Instr.clearIgnored, hbase]
  | jmp =>
    have hbase : field8to6 w = field8to6 w' := hfield 0x0E3F _ _ rfl (by decide)
    simp only [Instr.reread, Instr.clearIgnored, hbase]
  | trapUnknown =>
    have hvector : field7to0 w = field7to0 w' := hfield 0x0F00 _ _ rfl (by decide)
    simp only [Instr.reread, Instr.clearIgnored, hvector]
  | ret | rti | reserved | trapGetc | trapOut | trapPuts | trapIn | trapPutsp | trapHalt => rfl
  | br | addImm | andImm | ld | ldi | ldr | lea | st | sti | str | jsr =>
    obtain rfl : w = w' := by
      simpa only [Instr.ignoredBits, BitVec.ofNat_eq_ofNat, BitVec.not_zero, BitVec.and_allOnes] using h
    rfl

theorem wellFormed_clearIgnored (i : Instr) : i.clearIgnored.wellFormed = i.wellFormed := by
  cases i <;> rfl

/-- The bits an instruction ignores are none of those its row fixes. -/
theorem ignoredBits_disjoint_row (i : Instr) : ~~~i.ignoredBits &&& i.tableRow.1 = i.tableRow.1 := by
  cases i <;> dsimp only [Instr.ignoredBits, Instr.tableRow] <;> decide

/-- Rereading keeps the row. -/
theorem tableRow_reread (w : Word) (i : Instr) : (i.reread w).tableRow = i.tableRow := by
  cases i <;> rfl

theorem reread_reread (w : Word) (i : Instr) : (i.reread w).reread w = i.reread w := by
  cases i <;> rfl

/-- A word that differs from one of `i`'s in ignored bits only is one of `i`'s row, with its own operands. -/
theorem ReadsAs.reread (h : ReadsAs w i) (hw : w &&& ~~~i.ignoredBits = w' &&& ~~~i.ignoredBits) :
    ReadsAs w' (i.reread w') := by
  obtain ⟨hrow, hfields, hwf⟩ := h
  refine ⟨?_, reread_reread w' i, ?_⟩
  · calc w' &&& (i.reread w').tableRow.1
        = w' &&& ~~~i.ignoredBits &&& i.tableRow.1 := by
          rw [tableRow_reread, BitVec.and_assoc, ignoredBits_disjoint_row]
      _ = w &&& i.tableRow.1 := by rw [← hw, BitVec.and_assoc, ignoredBits_disjoint_row]
      _ = (i.reread w').tableRow.2 := by rw [hrow, tableRow_reread]
  · rw [← wellFormed_clearIgnored, ← clearIgnored_reread_congr hw, hfields, wellFormed_clearIgnored, hwf]

end Sys2Proof

namespace Sys2Proof.Machine

/-! ### FAULT.ir is the only thing the ignored bits of a trap reach -/

/-- The word a routine's output failure is charged to shows in FAULT.ir alone. -/
theorem forgetIr_conclude (o : Output) (ir ir' v : Word) {k k' : State → Host.Outcome State Fault Refusal}
    (hk : ∀ s, forgetIr (k s) = forgetIr (k' s)) :
    forgetIr (o.conclude ir v k) = forgetIr (o.conclude ir' v k') := by
  cases o with
  | done s => exact hk s
  | failed s | endless => rfl

theorem forgetIr_execTrapGetc (x y : BitVec 4) (s : State) :
    forgetIr (execTrapGetc x s) = forgetIr (execTrapGetc y s) := by
  unfold execTrapGetc
  cases s.trapEntry.readByte <;> rfl

theorem forgetIr_execTrapIn (x y : BitVec 4) (s : State) :
    forgetIr (execTrapIn x s) = forgetIr (execTrapIn y s) := by
  refine forgetIr_conclude _ _ _ _ fun s1 => ?_
  cases s1.readByte with
  | byte b s2 => exact forgetIr_conclude _ _ _ _ fun _ => rfl
  | failed s2 | hold => rfl

/-- R87: the operands an instruction ignores reach nothing but FAULT.ir. -/
theorem forgetIr_exec_clearIgnored (i : Instr) (s : State) :
    forgetIr (exec i.clearIgnored s) = forgetIr (exec i s) := by
  cases i with
  | trapGetc x => exact forgetIr_execTrapGetc 0 x s
  | trapIn x => exact forgetIr_execTrapIn 0 x s
  | trapOut | trapPuts | trapPutsp | trapHalt => exact forgetIr_conclude _ _ _ _ fun _ => rfl
  | br | addImm | andImm | ld | ldi | ldr | lea | st | sti | str | jsr => rfl
  | add | and | not | jsrr | jmp | ret | rti | reserved | trapUnknown => rfl

/-- Settles O5: the two words read as instructions of one row that differ in ignored operands only. -/
theorem ignoredBitsChangeNothing : Obligations.IgnoredBitsChangeNothing := by
  intro w w' s hw
  have hread : ReadsAs w (decode w) := decode_readsAs w
  calc forgetIr (exec (decode w') s)
      = forgetIr (exec ((decode w).reread w').clearIgnored s) := by
        rw [(hread.reread hw).decode_eq, forgetIr_exec_clearIgnored]
    _ = forgetIr (exec (decode w) s) := by
        rw [← clearIgnored_reread_congr hw, hread.fields, forgetIr_exec_clearIgnored]

end Sys2Proof.Machine
end

section
/-! SUPPORT. What an instruction can do to the state, said once: it is a run of the operations below, each allowed by a
property of the instruction, or it is a Hold. The whole-machine rules are then proved operation by operation. -/

namespace Sys2Proof

/-- The calls and the traps, which begin by writing the link to R7 (R182, R183, R200). -/
def Instr.links : Instr → Bool
  | .jsr _ | .jsrr _ _ _ => true
  | i => i.isTrap

/-- GETC and IN, the routines that read a byte. -/
def Instr.takesInput (i : Instr) : Prop := ∃ x, i = .trapGetc x ∨ i = .trapIn x

/-- The faults an instruction can raise, with the code and the info of each (R242). -/
inductive Instr.FaultCause : Instr → Machine.FaultCode → Word → Prop
  | rti (x : BitVec 12) : FaultCause (.rti x) .illegalOpcodeRti 0x0008
  | reserved (x : BitVec 12) : FaultCause (.reserved x) .illegalOpcodeReserved 0x000D
  | trapUnknown (x : BitVec 4) (v : BitVec 8) : FaultCause (.trapUnknown x v) .unknownTrap (Machine.zext16 v)
  | poll {i : Instr} (h : i.mayPoll = true) : FaultCause i .inputFailure Machine.kbsr
  | getcRead (x : BitVec 4) : FaultCause (.trapGetc x) .inputFailure 0x0020
  | inRead (x : BitVec 4) : FaultCause (.trapIn x) .inputFailure 0x0023
  | outWrite (x : BitVec 4) : FaultCause (.trapOut x) .outputFailure 0x0021
  | putsWrite (x : BitVec 4) : FaultCause (.trapPuts x) .outputFailure 0x0022
  | inWrite (x : BitVec 4) : FaultCause (.trapIn x) .outputFailure 0x0023
  | putspWrite (x : BitVec 4) : FaultCause (.trapPutsp x) .outputFailure 0x0024
  | haltWrite (x : BitVec 4) : FaultCause (.trapHalt x) .outputFailure 0x0025

end Sys2Proof

namespace Sys2Proof.Machine

/-- What a MemRead of KBSR can do (R52). -/
inductive PollOp : State → State → Prop
  | nothing {s : State} (h : s.noKey) :
      PollOp s (((s.setInput s.input.tail).log (.probe false)).memWrite kbsr 0)
  | byte {s : State} {b : Byte} {rest : List InAnswer} (h : s.input = .byte b :: rest) :
      PollOp s (((((s.setInput rest).log (.probe true)).log (.read b)).memWrite kbdr (ext16 s.inputExt b)).memWrite
        kbsr kbsrReady)
  | fail {s : State} {rest : List InAnswer} (h : s.input = .fail :: rest) :
      PollOp s ((s.setInput rest).log (.probe true))

/-- The operations on the state that the instruction `i` may use, after it has written its link. -/
inductive Op (i : Instr) : State → State → Prop
  | setReg {s : State} {r : RegNum} (v : Word) (h : i.mayWriteReg r) (h7 : i.links = true → r ≠ 7) :
      Op i s (s.setReg r v)
  | setCond {s : State} (v : Word) (h : i.flagDest ≠ none) : Op i s (s.setCond v)
  | setPc {s : State} (v : Word) (h : i.mayWritePc = true) : Op i s (s.setPc v)
  | store {s : State} (a v : Word) (h : i.isStore = true) : Op i s (s.memWrite a v)
  | poll {s t : State} (h : i.mayPoll = true) (hp : PollOp s t) : Op i s t
  | readByte {s : State} {b : Byte} {rest : List InAnswer} (h : i.takesInput) (hi : s.input = .byte b :: rest) :
      Op i s ((s.setInput rest).log (.read b))
  | readFail {s : State} {rest : List InAnswer} (h : i.takesInput) (hi : s.input = .fail :: rest) :
      Op i s (s.setInput rest)
  | output {s : State} (n : Nat) (es : List Event) (h : i.mayOutput = true) (hes : ∀ e ∈ es, e.isOutput = true) :
      Op i s (s.afterOutput n es)
  | raise {s : State} {code : FaultCode} {info : Word} (h : i.FaultCause code info) :
      Op i s (s.raise code (encode i) info)
  | halt {s : State} (h : ∃ x, i = .trapHalt x) : Op i s (s.setStatus .halted)

/-- A run of such operations. -/
abbrev Ops (i : Instr) : State → State → Prop := Relation.ReflTransGen (Op i)

/-- What every operation of `i` keeps to, a run of them keeps to. -/
theorem Ops.lift {i : Instr} {s t : State} {R : State → State → Prop} (hrefl : ∀ u, R u u)
    (htrans : ∀ u v w, R u v → R v w → R u w) (hop : ∀ u v, Op i u v → R u v) (h : Ops i s t) : R s t := by
  induction h with
  | refl => exact hrefl s
  | tail _ hlast ih => exact htrans _ _ _ ih (hop _ _ hlast)

theorem Ops.keeps {i : Instr} {s t : State} {α : Type} (f : State → α) (hop : ∀ u v, Op i u v → f v = f u)
    (h : Ops i s t) : f t = f s :=
  h.lift (R := fun u v => f v = f u) (fun _ => rfl) (fun _ _ _ h1 h2 => h2.trans h1) hop

/-- The state in which the operations begin: the link written, if the instruction writes one. -/
def State.entry (s : State) (i : Instr) : State := if i.links then s.setReg 7 s.pc else s

theorem State.entry_cases {P : State → Prop} (s : State) (i : Instr) (hlink : P (s.setReg 7 s.pc)) (hnone : P s) :
    P (s.entry i) := by
  unfold State.entry
  split
  · exact hlink
  · exact hnone

/-- What the link does not change, the entry does not. -/
theorem State.entry_congr {α : Type} (f : State → α) (s : State) (i : Instr) (hf : f (s.setReg 7 s.pc) = f s) :
    f (s.entry i) = f s :=
  State.entry_cases (P := fun u => f u = f s) s i hf rfl

section
variable {i : Instr} {s t u : State}

/-- The result write of an instruction that is no call and no trap. -/
theorem Ops.result {dr : RegNum} (v c : Word) (h : Ops i s u) (hdr : i.flagDest = some dr) (hlinks : i.links = false) :
    Ops i s ((u.setReg dr v).setCond c) := by
  have hreg : i.mayWriteReg dr := by cases i <;> simp_all [Instr.flagDest, Instr.mayWriteReg]
  exact (h.tail (.setReg v hreg (by simp [hlinks]))).tail (.setCond c (by simp [hdr]))

/-- A MemRead that gives a word is a poll or no operation at all. -/
theorem memRead_value_op {a w : Word} (h : s.memRead a = .value w u) : u = s ∨ PollOp s u := by
  rcases s.memRead_cases a with ⟨-, e⟩ | ⟨-, hi, e⟩ | ⟨-, b, rest, hi, e⟩ | ⟨-, rest, -, e⟩ <;> cases h.symm.trans e
  · exact .inl rfl
  · exact .inr (.nothing hi)
  · exact .inr (.byte hi)

theorem memRead_inputFailure_op {a : Word} (h : s.memRead a = .inputFailure u) : PollOp s u := by
  obtain ⟨-, rest, hi, rfl⟩ := State.memRead_inputFailure_inv h
  exact .fail hi

theorem Ops.memRead_value {a w : Word} (h : Ops i s t) (hpoll : i.mayPoll = true) (hr : t.memRead a = .value w u) :
    Ops i s u := by
  rcases memRead_value_op hr with rfl | hp
  · exact h
  · exact h.tail (.poll hpoll hp)

/-- A failed MemRead and the fault it raises. -/
theorem Ops.memRead_failed {a : Word} (h : Ops i s t) (hpoll : i.mayPoll = true)
    (hr : t.memRead a = .inputFailure u) : Ops i s (u.raise .inputFailure (encode i) kbsr) :=
  (h.tail (.poll hpoll (memRead_inputFailure_op hr))).tail (.raise (.poll hpoll))

theorem isOutput_writes (bs : List Byte) : ∀ e ∈ bs.map Event.write, e.isOutput = true := by
  simp [Event.isOutput]

theorem isOutput_writes_flush (bs : List Byte) : ∀ e ∈ bs.map Event.write ++ [.flush], e.isOutput = true := by
  simp [Event.isOutput, or_imp, forall_and]

theorem Ops.loadFrom {dr : RegNum} {a : Word} (h : s.loadFrom dr a (encode i) = .next t)
    (hdr : i.flagDest = some dr) (hlinks : i.links = false) (hpoll : i.mayPoll = true) : Ops i s t := by
  rcases s.loadFrom_cases dr a (encode i) with ⟨w, u, hu, e⟩ | ⟨u, hu, e⟩ <;> cases h.symm.trans e
  · exact .result w _ (.memRead_value .refl hpoll hu) hdr hlinks
  · exact .memRead_failed .refl hpoll hu

theorem execLdi_ops {dr : RegNum} {off : BitVec 9} (h : execLdi dr off s = .next t) : Ops (.ldi dr off) s t := by
  rcases execLdi_cases s dr off with ⟨p, u, w, v, hu, hv, e⟩ | ⟨p, u, v, hu, hv, e⟩ | ⟨u, hu, e⟩ <;>
    cases h.symm.trans e
  · exact .result w _ (.memRead_value (.memRead_value .refl rfl hu) rfl hv) rfl rfl
  · exact .memRead_failed (.memRead_value .refl rfl hu) rfl hv
  · exact .memRead_failed .refl rfl hu

theorem execSti_ops {sr : RegNum} {off : BitVec 9} (h : execSti sr off s = .next t) : Ops (.sti sr off) s t := by
  rcases execSti_cases s sr off with ⟨p, u, hu, e⟩ | ⟨u, hu, e⟩ <;> cases h.symm.trans e
  · exact (Ops.memRead_value .refl rfl hu).tail (.store p _ rfl)
  · exact .memRead_failed .refl rfl hu

theorem execBr_ops {mask : BitVec 3} {off : BitVec 9} (h : execBr mask off s = .next t) : Ops (.br mask off) s t := by
  unfold execBr at h
  split at h <;> cases h
  · exact .single (.setPc _ rfl)
  · exact .refl

/-- Output that is concluded by `k`, where `k` goes on with operations of `i`. -/
theorem Ops.emitAll_conclude {es : List Event} {v : Word} {k : State → Host.Outcome State Fault Refusal}
    (h : (s.emitAll es).conclude (encode i) v k = .next t) (hout : i.mayOutput = true)
    (hes : ∀ e ∈ es, e.isOutput = true) (hcause : i.FaultCause .outputFailure v)
    (hk : ∀ u, k u = .next t → Ops i u t) : Ops i s t := by
  rcases s.emitAll_conclude_cases es (encode i) v k with ⟨-, e⟩ | ⟨n, -, -, -, e⟩
  · exact .head (.output _ es hout hes) (hk _ (e.symm.trans h))
  · cases h.symm.trans e
    exact .head (.output _ _ hout fun e he => hes e (List.mem_of_mem_take he)) (.single (.raise hcause))

theorem execTrapOut_ops {x : BitVec 4} (h : execTrapOut x s = .next t) :
    Ops (.trapOut x) (s.setReg 7 s.pc) t := by
  rw [execTrapOut_eq] at h
  exact .emitAll_conclude h rfl (isOutput_writes_flush [_]) (.outWrite x) fun u hu => by cases hu; exact .refl

theorem execTrapHalt_ops {x : BitVec 4} (h : execTrapHalt x s = .next t) :
    Ops (.trapHalt x) (s.setReg 7 s.pc) t := by
  rw [execTrapHalt_eq] at h
  exact .emitAll_conclude h rfl (isOutput_writes_flush _) (.haltWrite x) fun u hu => by
    cases hu
    exact .single (.halt ⟨x, rfl⟩)

/-- A string routine: Writes and a Flush, or Writes and the fault. -/
theorem Ops.outString {f : Word → List Byte} {p v : Word}
    (h : ((State.outString f Config.memorySize p s).andThen State.flush).conclude (encode i) v .next = .next t)
    (hout : i.mayOutput = true) (hcause : i.FaultCause .outputFailure v) : Ops i s t := by
  rcases s.outString_conclude_cases f p (encode i) v with ⟨n, bs, -, e⟩ | ⟨n, bs, e⟩ | ⟨-, e⟩ <;> cases h.symm.trans e
  · exact .single (.output n _ hout (isOutput_writes_flush bs))
  · exact .head (.output n _ hout (isOutput_writes bs)) (.single (.raise hcause))

theorem execTrapGetc_ops {x : BitVec 4} (h : execTrapGetc x s = .next t) :
    (s.noKey ∧ t = s.held) ∨ Ops (.trapGetc x) (s.setReg 7 s.pc) t := by
  have hin : (Instr.trapGetc x).takesInput := ⟨x, .inl rfl⟩
  rcases execTrapGetc_cases s x with ⟨b, rest, hi, e⟩ | ⟨rest, hi, e⟩ | ⟨hi, e⟩ <;> cases h.symm.trans e
  · exact .inr (((Relation.ReflTransGen.single (.readByte hin hi)).tail (.setReg _ (.inl rfl) fun _ => by decide)).tail
      (.setCond _ nofun))
  · exact .inr ((Relation.ReflTransGen.single (.readFail hin hi)).tail (.raise (.getcRead x)))
  · exact .inl ⟨hi, rfl⟩

theorem execTrapIn_ops {x : BitVec 4} (h : execTrapIn x s = .next t) :
    (s.noKey ∧ t = s.held) ∨ Ops (.trapIn x) (s.setReg 7 s.pc) t := by
  have hin : (Instr.trapIn x).takesInput := ⟨x, .inr rfl⟩
  have hprompt : Ops (.trapIn x) (s.setReg 7 s.pc) ((s.setReg 7 s.pc).afterOutput 19 (inPrompt.map .write)) :=
    .single (.output _ _ rfl (isOutput_writes _))
  have hraise : (Instr.trapIn x).FaultCause .outputFailure 0x0023 := .inWrite x
  rcases execTrapIn_cases s x with
    ⟨b, rest, hi, e⟩ | ⟨n, -, e⟩ | ⟨b, rest, n, -, hi, e⟩ | ⟨rest, hi, e⟩ | ⟨hi, e⟩ <;> cases h.symm.trans e
  · have hecho := (hprompt.tail (.readByte hin hi)).tail (.output 2 _ rfl (isOutput_writes_flush [b]))
    exact .inr ((hecho.tail (.setReg _ (.inl rfl) fun _ => by decide)).tail (.setCond _ nofun))
  · exact .inr (.head (.output _ _ rfl fun e he => isOutput_writes _ e (List.mem_of_mem_take he))
      (.single (.raise hraise)))
  · exact .inr (((hprompt.tail (.readByte hin hi)).tail
      (.output _ _ rfl fun e he => isOutput_writes_flush [b] e (List.mem_of_mem_take he))).tail (.raise hraise))
  · exact .inr ((hprompt.tail (.readFail hin hi)).tail (.raise (.inRead x)))
  · exact .inl ⟨hi, rfl⟩

/-- All an instruction can do: a Hold of GETC or IN, or the link and then operations it is allowed. -/
theorem exec_ops (h : exec i s = .next t) : (s.noKey ∧ t = s.held ∧ i.takesInput) ∨ Ops i (s.entry i) t := by
  cases i with
  | add | addImm | and | andImm | not | lea =>
    cases h
    rw [State.writeResult_eq]
    exact .inr (.result _ _ .refl rfl rfl)
  | br => exact .inr (execBr_ops h)
  | ld | ldr => exact .inr (.loadFrom h rfl rfl rfl)
  | ldi => exact .inr (execLdi_ops h)
  | sti => exact .inr (execSti_ops h)
  | st | str =>
    cases h
    exact .inr (.single (.store _ _ rfl))
  | jsr | jsrr | jmp | ret =>
    cases h
    exact .inr (.single (.setPc _ rfl))
  | rti x =>
    cases h
    exact .inr (.single (.raise (.rti x)))
  | reserved x =>
    cases h
    exact .inr (.single (.raise (.reserved x)))
  | trapUnknown x v =>
    cases h
    exact .inr (.single (.raise (.trapUnknown x v)))
  | trapOut => exact .inr (execTrapOut_ops h)
  | trapHalt => exact .inr (execTrapHalt_ops h)
  | trapPuts x => exact .inr (.outString h rfl (.putsWrite x))
  | trapPutsp x => exact .inr (.outString h rfl (.putspWrite x))
  | trapGetc x => exact (execTrapGetc_ops h).imp_left fun ⟨hi, ht⟩ => ⟨hi, ht, x, .inl rfl⟩
  | trapIn x => exact (execTrapIn_ops h).imp_left fun ⟨hi, ht⟩ => ⟨hi, ht, x, .inr rfl⟩

end

end Sys2Proof.Machine
end

section
/-! SUPPORT. The whole-machine rules: each holds of every operation an instruction is allowed, and so of the
instruction. -/

namespace Sys2Proof.Machine

variable {i : Instr} {s t u v : State}

/-! ### The link -/

theorem links_iff (i : Instr) :
    i.links = true ↔ i.isTrap = true ∨ (∃ off, i = .jsr off) ∨ ∃ base x y, i = .jsrr base x y := by
  cases i <;> simp [Instr.links, Instr.isTrap]

theorem mayWriteReg_seven_of_links (h : i.links = true) : i.mayWriteReg 7 := by
  cases i <;> simp_all [Instr.links, Instr.isTrap, Instr.mayWriteReg]

theorem State.entry_reg (s : State) {r : RegNum} (h : ¬ i.mayWriteReg r) : (s.entry i).reg r = s.reg r := by
  unfold State.entry
  split
  · next hlinks => exact s.reg_setReg_ne _ fun h7 => h (h7 ▸ mayWriteReg_seven_of_links hlinks)
  · rfl

/-! ### Registers (R22, R210) -/

theorem Op.reg_eq {r : RegNum} (h : ¬ i.mayWriteReg r) (hop : Op i u v) : v.reg r = u.reg r := by
  cases hop with
  | setReg val hr => exact u.reg_setReg_ne val fun e => h (e ▸ hr)
  | poll _ hp => cases hp <;> rfl
  | _ => rfl

/-- After the link no operation of a call or a trap writes R7. -/
theorem Op.link_eq (hlinks : i.links = true) (hop : Op i u v) : v.reg 7 = u.reg 7 := by
  cases hop with
  | setReg val _ h7 => exact u.reg_setReg_ne val (h7 hlinks).symm
  | poll _ hp => cases hp <;> rfl
  | _ => rfl

theorem exec_reg_eq {r : RegNum} (h : exec i s = .next t) (hr : ¬ i.mayWriteReg r) : t.reg r = s.reg r := by
  rcases exec_ops h with ⟨-, rfl, -⟩ | hops
  · rfl
  · have hkept : t.reg r = (s.entry i).reg r :=
      hops.keeps (·.reg r) fun _ _ => Op.reg_eq hr
    rw [hkept, s.entry_reg hr]

theorem exec_link (h : exec i s = .next t) (hlinks : i.links = true) :
    t.reg 7 = s.pc ∨ (s.noKey ∧ t = s.held ∧ i.takesInput) := by
  refine (exec_ops h).symm.imp_left fun hops => ?_
  have hkept : t.reg 7 = (s.entry i).reg 7 :=
    hops.keeps (·.reg 7) fun _ _ => Op.link_eq hlinks
  rw [hkept, State.entry, if_pos hlinks, State.reg_setReg_self]

/-- Settles O44: no operation writes a register that is not named, and none writes R7 after the link. -/
theorem registersWrittenOnlyBy : Obligations.RegistersWrittenOnlyBy := fun i _ _ h =>
  ⟨fun _ hr => exec_reg_eq h hr, fun hlinks => exec_link h ((links_iff i).mpr hlinks)⟩

/-! ### PC (R24) -/

theorem Op.pc_eq (h : i.mayWritePc = false) (hop : Op i u v) : v.pc = u.pc := by
  cases hop with
  | setPc val hpc => exact absurd (h.symm.trans hpc) Bool.false_ne_true
  | poll _ hp => cases hp <;> rfl
  | _ => rfl

theorem exec_pc_eq (h : exec i s = .next t) (hi : i.mayWritePc = false) :
    t.pc = s.pc ∨ (s.noKey ∧ t = s.held ∧ i.takesInput) := by
  refine (exec_ops h).symm.imp_left fun hops => ?_
  have hkept : t.pc = (s.entry i).pc :=
    hops.keeps (·.pc) fun _ _ => Op.pc_eq hi
  rw [hkept, s.entry_congr State.pc i rfl]

theorem State.fetch_inputFailure_pc (h : s.fetch = .inputFailure u) : u.pc = s.pc + 1 := by
  obtain ⟨-, rest, -, rfl⟩ := State.memRead_inputFailure_inv h
  rfl

/-- Settles O45: the fetch increments PC; no operation of another instruction writes it; a BR not taken is none. -/
theorem pcWrittenOnlyBy : Obligations.PcWrittenOnlyBy := by
  refine fun s => ⟨fun w u => State.fetch_value_pc, fun u => State.fetch_inputFailure_pc, fun i t => exec_pc_eq, ?_⟩
  intro mask off t h hmask
  cases h.symm.trans (exec_br_of_not_taken off hmask)
  rfl

/-! ### Memory (R55) -/

theorem PollOp.sameMemoryBut (hp : PollOp u v) : sameMemoryBut (fun a => a = kbsr ∨ a = kbdr) u v := by
  intro a ha
  obtain ⟨hkbsr, hkbdr⟩ := not_or.mp ha
  cases hp with
  | nothing => exact State.memPlain_memWrite_ne _ _ hkbsr
  | byte => exact (State.memPlain_memWrite_ne _ _ hkbsr).trans (State.memPlain_memWrite_ne _ _ hkbdr)
  | fail => rfl

theorem Op.sameMemoryBut (h : i.isStore = false) (hop : Op i u v) :
    sameMemoryBut (fun a => a = kbsr ∨ a = kbdr) u v := by
  cases hop with
  | store _ _ hstore => exact absurd (h.symm.trans hstore) Bool.false_ne_true
  | poll _ hp => exact hp.sameMemoryBut
  | _ => exact fun _ _ => rfl

theorem Op.mem_eq (hstore : i.isStore = false) (hpoll : i.mayPoll = false) (hop : Op i u v) : v.mem = u.mem := by
  cases hop with
  | store _ _ h => exact absurd (hstore.symm.trans h) Bool.false_ne_true
  | poll h => exact absurd (hpoll.symm.trans h) Bool.false_ne_true
  | _ => rfl

theorem sameMemory_of_mem_eq (h : t.mem = s.mem) : sameMemory s t := fun a => congrArg (Memory.read · a.toNat) h

theorem exec_mem_eq (h : exec i s = .next t) (hstore : i.isStore = false) (hpoll : i.mayPoll = false) :
    t.mem = s.mem := by
  rcases exec_ops h with ⟨-, rfl, -⟩ | hops
  · rfl
  · have hkept : t.mem = (s.entry i).mem :=
      hops.keeps (·.mem) fun _ _ => Op.mem_eq hstore hpoll
    rw [hkept, s.entry_congr State.mem i rfl]

theorem exec_sameMemoryBut (h : exec i s = .next t) (hstore : i.isStore = false) :
    sameMemoryBut (fun a => a = kbsr ∨ a = kbdr) s t := by
  rcases exec_ops h with ⟨-, rfl, -⟩ | hops
  · exact fun _ _ => rfl
  · have hkept := hops.lift (R := Machine.sameMemoryBut fun a => a = kbsr ∨ a = kbdr) (fun _ _ _ => rfl)
      (fun _ _ _ h1 h2 a ha => (h2 a ha).trans (h1 a ha)) fun _ _ => Op.sameMemoryBut hstore
    exact fun a ha => (hkept a ha).trans (sameMemory_of_mem_eq (s.entry_congr State.mem i rfl) a)

theorem fetch_of_ne {w : Word} (hpc : s.pc ≠ kbsr) (h : s.fetch = .value w u) :
    w = s.memPlain s.pc ∧ u = s.setPc (s.pc + 1) := by
  cases h.symm.trans (State.memRead_of_ne (s.setPc (s.pc + 1)) hpc)
  exact ⟨rfl, rfl⟩

/-- Settles O48: no operation writes memory but a store and a poll, and a poll writes KBSR and KBDR only. -/
theorem memoryWrittenOnlyBy : Obligations.MemoryWrittenOnlyBy := by
  refine fun s => ⟨fun i t h hstore => ⟨fun hpoll => ?_, exec_sameMemoryBut h hstore⟩, fun w u hpc hf => ?_⟩
  · exact sameMemory_of_mem_eq (exec_mem_eq h hstore hpoll)
  · obtain ⟨-, rfl⟩ := fetch_of_ne hpc hf
    exact fun _ => rfl

/-! ### Output (R208, R258) -/

/-- From `s` to `t` the output device was not used and no output was recorded. -/
def noOutput (s t : State) : Prop :=
  t.outAnswers = s.outAnswers ∧ ∃ es, t.trace = s.trace ++ es ∧ ∀ e ∈ es, e.isOutput = false

theorem noOutput_of_eq (ho : t.outAnswers = s.outAnswers) (ht : t.trace = s.trace) : noOutput s t :=
  ⟨ho, [], by simpa using ht, nofun⟩

theorem noOutput.trans (h1 : noOutput s t) (h2 : noOutput t u) : noOutput s u := by
  obtain ⟨ho, es, ht, hes⟩ := h1
  obtain ⟨ho', es', ht', hes'⟩ := h2
  refine ⟨ho'.trans ho, es ++ es', by rw [ht', ht, List.append_assoc], fun e he => ?_⟩
  exact (List.mem_append.mp he).elim (hes e) (hes' e)

theorem PollOp.noOutput (hp : PollOp u v) : noOutput u v := by
  cases hp with
  | nothing => exact ⟨rfl, [.probe false], rfl, by simp [Event.isOutput]⟩
  | @byte b => exact ⟨rfl, [.probe true, .read b], by simp, by simp [Event.isOutput]⟩
  | fail => exact ⟨rfl, [.probe true], rfl, by simp [Event.isOutput]⟩

theorem Op.noOutput (h : i.mayOutput = false) (hop : Op i u v) : noOutput u v := by
  cases hop with
  | output _ _ hout => exact absurd (h.symm.trans hout) Bool.false_ne_true
  | poll _ hp => exact hp.noOutput
  | @readByte b => exact ⟨rfl, [.read b], rfl, by simp [Event.isOutput]⟩
  | _ => exact noOutput_of_eq rfl rfl

/-- Settles O49: no operation but the output of a routine uses the output device or records output. -/
theorem outputOnlyByRoutines : Obligations.OutputOnlyByRoutines := by
  intro i s t h hout
  rcases exec_ops h with ⟨-, rfl, -⟩ | hops
  · exact noOutput_of_eq rfl rfl
  · have hentry : noOutput s (s.entry i) := s.entry_cases i (noOutput_of_eq rfl rfl) (noOutput_of_eq rfl rfl)
    exact hentry.trans
      (hops.lift (fun _ => noOutput_of_eq rfl rfl) (fun _ _ _ => noOutput.trans) fun _ _ => Op.noOutput hout)

/-! ### The input stream (R36, D25) -/

/-- From `s` to `t` no byte of the input was lost, and the trace and the devices' answers moved on only. -/
def streamKept (s t : State) : Prop :=
  readsOf t.trace ++ bytesOf t.input = readsOf s.trace ++ bytesOf s.input ∧
  s.trace <+: t.trace ∧ t.input <:+ s.input ∧ t.outAnswers <:+ s.outAnswers ∧ t.inputExt = s.inputExt

theorem streamKept.trans (h1 : streamKept s t) (h2 : streamKept t u) : streamKept s u := by
  obtain ⟨hs, ht, hi, ho, hx⟩ := h1
  obtain ⟨hs', ht', hi', ho', hx'⟩ := h2
  exact ⟨hs'.trans hs, ht.trans ht', hi'.trans hi, ho'.trans ho, hx'.trans hx⟩

theorem streamKept_of_eq (ht : t.trace = s.trace) (hi : t.input = s.input) (ho : t.outAnswers = s.outAnswers)
    (hx : t.inputExt = s.inputExt) : streamKept s t := by
  refine ⟨by rw [ht, hi], ?_, ?_, ?_, hx⟩
  · rw [ht]
  · rw [hi]
  · rw [ho]

/-- The input device gave the answers `l`, and the events `es` were recorded. -/
theorem streamKept_of_append {l : List InAnswer} {es : List Event} (ht : t.trace = s.trace ++ es)
    (hi : s.input = l ++ t.input) (hbytes : readsOf es = bytesOf l) (ho : t.outAnswers <:+ s.outAnswers)
    (hx : t.inputExt = s.inputExt) : streamKept s t := by
  refine ⟨?_, ⟨es, ht.symm⟩, ⟨l, hi.symm⟩, ho, hx⟩
  rw [ht, hi]
  simp only [readsOf, bytesOf, List.filterMap_append] at hbytes ⊢
  rw [hbytes, List.append_assoc]

theorem noKey_input (h : s.noKey) : ∃ l, s.input = l ++ s.input.tail ∧ bytesOf l = [] := by
  rcases h with h | ⟨rest, h⟩ <;> rw [h]
  · exact ⟨[], rfl, rfl⟩
  · exact ⟨[.wait], rfl, rfl⟩

theorem streamKept_held (h : s.noKey) : streamKept s s.held := by
  obtain ⟨l, hl, hbytes⟩ := noKey_input h
  exact streamKept_of_append (es := []) (by simp) hl hbytes.symm (List.suffix_refl _) rfl

theorem PollOp.streamKept (hp : PollOp u v) : streamKept u v := by
  cases hp with
  | nothing h =>
    obtain ⟨l, hl, hbytes⟩ := noKey_input h
    exact streamKept_of_append (es := [.probe false]) rfl hl hbytes.symm (List.suffix_refl _) rfl
  | @byte b rest h =>
    exact streamKept_of_append (l := [.byte b]) (es := [.probe true, .read b]) (by simp) h rfl (List.suffix_refl _) rfl
  | fail h => exact streamKept_of_append (l := [.fail]) (es := [.probe true]) rfl h rfl (List.suffix_refl _) rfl

theorem readsOf_of_isOutput {es : List Event} (h : ∀ e ∈ es, e.isOutput = true) : readsOf es = [] := by
  refine List.filterMap_eq_nil_iff.mpr fun e he => ?_
  cases e with
  | read b => exact absurd (h _ he) Bool.false_ne_true
  | write | flush | probe => rfl

theorem Op.streamKept (hop : Op i u v) : streamKept u v := by
  cases hop with
  | poll _ hp => exact hp.streamKept
  | @readByte b _ _ hi =>
    exact streamKept_of_append (l := [.byte b]) (es := [.read b]) rfl hi rfl (List.suffix_refl _) rfl
  | readFail _ hi => exact streamKept_of_append (l := [.fail]) (es := []) (by simp) hi rfl (List.suffix_refl _) rfl
  | output n es _ hes =>
    exact streamKept_of_append (l := []) rfl rfl (readsOf_of_isOutput hes) (List.drop_suffix _ _) rfl
  | _ => exact streamKept_of_eq rfl rfl rfl rfl

theorem exec_streamKept (h : exec i s = .next t) : streamKept s t := by
  rcases exec_ops h with ⟨hi, rfl, -⟩ | hops
  · exact streamKept_held hi
  · have hentry : streamKept s (s.entry i) :=
      s.entry_cases i (streamKept_of_eq rfl rfl rfl rfl) (streamKept_of_eq rfl rfl rfl rfl)
    exact hentry.trans
      (hops.lift (fun _ => streamKept_of_eq rfl rfl rfl rfl) (fun _ _ _ => streamKept.trans) fun _ _ => Op.streamKept)

theorem streamKept_setPc (s : State) (a : Word) : streamKept s (s.setPc a) := streamKept_of_eq rfl rfl rfl rfl

theorem fetch_value_streamKept {w : Word} (h : s.fetch = .value w u) : streamKept s u := by
  rcases memRead_value_op h with rfl | hp
  · exact streamKept_setPc s _
  · exact (streamKept_setPc s _).trans hp.streamKept

/-- Settles O50: the fetch and every operation keep the stream. -/
theorem eachInputByteIsReadOnce : Obligations.EachInputByteIsReadOnce := by
  intro s t h
  rcases step_cases s with ⟨-, e⟩ | ⟨-, e⟩ | ⟨-, w, u, hu, e⟩ | ⟨-, u, hu, e⟩
  · cases h.symm.trans e
  · cases h.symm.trans e
  · exact (fetch_value_streamKept hu).trans (exec_streamKept (e.symm.trans h))
  · cases h.symm.trans e
    have hraise : streamKept u u.fetchFailed := streamKept_of_eq rfl rfl rfl rfl
    exact ((streamKept_setPc s _).trans (memRead_inputFailure_op hu).streamKept).trans hraise

end Sys2Proof.Machine
end

section
/-! SUPPORT. The invariant (R26, R33, R242), the causes of faults, and when a step has no next state. -/

namespace Sys2Proof.Machine

variable {i : Instr} {s t u v : State}

/-! ### Canonical memory -/

theorem PollOp.wf (hp : PollOp u v) (h : u.mem.wf) : v.mem.wf := by
  cases hp with
  | nothing => exact State.wf_memWrite h _ _
  | byte => exact State.wf_memWrite (State.wf_memWrite h _ _) _ _
  | fail => exact h

theorem Op.wf (hop : Op i u v) (h : u.mem.wf) : v.mem.wf := by
  cases hop with
  | store => exact State.wf_memWrite h _ _
  | poll _ hp => exact hp.wf h
  | _ => exact h

theorem exec_wf (h : exec i s = .next t) (hs : s.mem.wf) : t.mem.wf := by
  rcases exec_ops h with ⟨-, rfl, -⟩ | hops
  · exact hs
  · have hkept := hops.lift (R := fun u v => u.mem.wf → v.mem.wf) (fun _ => id) (fun _ _ _ h1 h2 => h2 ∘ h1)
      fun _ _ => Op.wf
    exact hkept ((s.entry_congr State.mem i rfl).symm ▸ hs)

/-! ### Faults (R241, R242) -/

/-- From `s` to `t` no fault was taken, or one with a cause of `i`; `i` left PC where a fault finds it. -/
def faultCaused (i : Instr) (s t : State) : Prop :=
  (i.mayWritePc = false → t.pc = s.pc) ∧
  (t.status = .faulted → (s.status = .faulted ∧ t.fault = s.fault) ∨
    ∃ code info, i.FaultCause code info ∧ t.fault = ⟨code, s.pc - 1, encode i, info⟩)

theorem mayWritePc_of_faultCause {code : FaultCode} {info : Word} (h : i.FaultCause code info) :
    i.mayWritePc = false := by
  cases h with
  | poll hp => cases i <;> simp_all [Instr.mayPoll, Instr.mayWritePc]
  | _ => rfl

theorem code_ne_none_of_faultCause {code : FaultCode} {info : Word} (h : i.FaultCause code info) :
    code ≠ .none := by
  cases h <;> decide

theorem faultCaused_of_eq (hpc : t.pc = s.pc) (hs : t.status = s.status) (hf : t.fault = s.fault) :
    faultCaused i s t :=
  ⟨fun _ => hpc, fun ht => .inl ⟨hs ▸ ht, hf⟩⟩

theorem faultCaused.trans (h1 : faultCaused i s t) (h2 : faultCaused i t u) : faultCaused i s u := by
  obtain ⟨hpc, hf⟩ := h1
  obtain ⟨hpc', hf'⟩ := h2
  refine ⟨fun hi => (hpc' hi).trans (hpc hi), fun hu => ?_⟩
  rcases hf' hu with ⟨ht, heq⟩ | ⟨code, info, hcause, heq⟩
  · rw [heq]
    exact hf ht
  · exact .inr ⟨code, info, hcause, by rw [heq, hpc (mayWritePc_of_faultCause hcause)]⟩

theorem Op.faultCaused (hop : Op i u v) : faultCaused i u v := by
  cases hop with
  | setPc _ h => exact ⟨fun hi => absurd (hi.symm.trans h) Bool.false_ne_true, fun ht => .inl ⟨ht, rfl⟩⟩
  | poll _ hp => cases hp <;> exact faultCaused_of_eq rfl rfl rfl
  | raise h => exact ⟨fun _ => rfl, fun _ => .inr ⟨_, _, h, rfl⟩⟩
  | halt => exact ⟨fun _ => rfl, nofun⟩
  | _ => exact faultCaused_of_eq rfl rfl rfl

theorem exec_fault (h : exec i s = .next t) (ht : t.status = .faulted) :
    (s.status = .faulted ∧ t.fault = s.fault) ∨
    ∃ code info, i.FaultCause code info ∧ t.fault = ⟨code, s.pc - 1, encode i, info⟩ := by
  rcases exec_ops h with ⟨-, rfl, -⟩ | hops
  · exact .inl ⟨ht, rfl⟩
  · have hentry : faultCaused i s (s.entry i) := 
      s.entry_cases i (faultCaused_of_eq rfl rfl rfl) (faultCaused_of_eq rfl rfl rfl)
    have hrun : faultCaused i (s.entry i) t :=
      hops.lift (fun _ => faultCaused_of_eq rfl rfl rfl) (fun _ _ _ => faultCaused.trans) fun _ _ => Op.faultCaused
    exact (hentry.trans hrun).2 ht

/-- Settles O52: a fault is the last one an operation took, and each cause has its code and info. -/
theorem faultCauses : Obligations.FaultCauses := by
  intro i s t hs h ht
  rcases exec_fault h ht with ⟨hs', -⟩ | ⟨code, info, hcause, hfault⟩
  · exact absurd hs' hs
  · refine ⟨by rw [hfault], by rw [hfault], ?_⟩
    rw [hfault]
    cases hcause with
    | poll hp => exact .inr (.inr (.inr (.inl ⟨hp, rfl, rfl⟩)))
    | _ => simp [FaultCode.number, zext16]

theorem exec_faultCoded (h : exec i s = .next t) (hs : s.faultCoded) : t.faultCoded := by
  intro ht
  rcases exec_fault h ht with ⟨hs', heq⟩ | ⟨code, info, hcause, heq⟩ <;> rw [heq]
  · exact hs hs'
  · exact code_ne_none_of_faultCause hcause

/-! ### The invariant -/

/-- Settles O54: memory is empty, COND is ZRO and STATUS Running (R33). -/
theorem invariantAtReset : Obligations.InvariantAtReset :=
  ⟨State.wf_reset, .inr (.inl rfl), nofun⟩

theorem exec_keeps_inv (h : exec i s = .next t) (hs : s.Inv) : t.Inv :=
  ⟨exec_wf h hs.memory, (exec_cond h).legal hs.cond, exec_faultCoded h hs.fault⟩

theorem PollOp.keeps_inv (hp : PollOp u v) (h : u.Inv) : v.Inv := by
  obtain ⟨hmem, hcond, hfault⟩ := h
  refine ⟨hp.wf hmem, ?_, ?_⟩ <;> cases hp <;> assumption

theorem State.setPc_keeps_inv (a : Word) (h : s.Inv) : (s.setPc a).Inv := ⟨h.memory, h.cond, h.fault⟩

/-- Settles O55: the fetch keeps the invariant, and so does the instruction or the fault that follows it. -/
theorem stepKeepsInvariant : Obligations.StepKeepsInvariant := by
  intro s t hs h
  have hpc : (s.setPc (s.pc + 1)).Inv := State.setPc_keeps_inv _ hs
  rcases step_cases s with ⟨-, e⟩ | ⟨-, e⟩ | ⟨-, w, u, hu, e⟩ | ⟨-, u, hu, e⟩
  · cases h.symm.trans e
  · cases h.symm.trans e
  · refine exec_keeps_inv (e.symm.trans h) ?_
    rcases memRead_value_op hu with rfl | hp
    · exact hpc
    · exact hp.keeps_inv hpc
  · cases h.symm.trans e
    have hu : u.Inv := (memRead_inputFailure_op hu).keeps_inv hpc
    exact ⟨hu.memory, hu.cond, fun _ => nofun⟩

/-! ### No next state (R110, R115, R211) -/

/-- Every instruction gives a next state, but a string routine in a memory with no end of string. -/
theorem exec_defined (i : Instr) (s : State) :
    (∃ t, exec i s = .next t) ∨
    (exec i s = .fault .diverge ∧ (∀ a, s.memPlain a ≠ 0) ∧ ∃ x, i = .trapPuts x ∨ i = .trapPutsp x) := by
  cases i with
  | add | addImm | and | andImm | not | lea | st | str | jsr | jsrr | jmp | ret | rti | reserved | trapUnknown =>
    exact .inl ⟨_, rfl⟩
  | br mask off =>
    rcases eq_or_ne (mask.setWidth 16 &&& s.cond) 0 with h | h
    · exact .inl ⟨_, exec_br_of_not_taken off h⟩
    · exact .inl ⟨_, exec_br_of_taken off h⟩
  | ld | ldr => exact .inl ((s.loadFrom_cases _ _ _).elim (fun ⟨_, _, _, e⟩ => ⟨_, e⟩) fun ⟨_, _, e⟩ => ⟨_, e⟩)
  | ldi dr off =>
    rcases execLdi_cases s dr off with ⟨p, u, w, v, -, -, e⟩ | ⟨p, u, v, -, -, e⟩ | ⟨u, -, e⟩ <;> exact .inl ⟨_, e⟩
  | sti sr off => rcases execSti_cases s sr off with ⟨p, u, -, e⟩ | ⟨u, -, e⟩ <;> exact .inl ⟨_, e⟩
  | trapGetc x =>
    rcases execTrapGetc_cases s x with ⟨b, rest, -, e⟩ | ⟨rest, -, e⟩ | ⟨-, e⟩ <;> exact .inl ⟨_, e⟩
  | trapIn x =>
    rcases execTrapIn_cases s x with
      ⟨b, rest, -, e⟩ | ⟨n, -, e⟩ | ⟨b, rest, n, -, -, e⟩ | ⟨rest, -, e⟩ | ⟨-, e⟩ <;> exact .inl ⟨_, e⟩
  | trapOut x =>
    left
    rw [exec, execTrapOut_eq]
    rcases State.emitAll_conclude_cases s.trapEntry _ (encode (.trapOut x)) 0x0021 .next with
      ⟨-, e⟩ | ⟨n, -, -, -, e⟩ <;> exact ⟨_, e⟩
  | trapHalt x =>
    left
    rw [exec, execTrapHalt_eq]
    rcases State.emitAll_conclude_cases s.trapEntry _ (encode (.trapHalt x)) 0x0025 _ with
      ⟨-, e⟩ | ⟨n, -, -, -, e⟩ <;> exact ⟨_, e⟩
  | trapPuts x =>
    rcases State.outString_conclude_cases s.trapEntry putsBytes _ (encode (.trapPuts x)) 0x0022 with
      ⟨n, bs, -, e⟩ | ⟨n, bs, e⟩ | ⟨hz, e⟩
    · exact .inl ⟨_, e⟩
    · exact .inl ⟨_, e⟩
    · exact .inr ⟨e, hz, x, .inl rfl⟩
  | trapPutsp x =>
    rcases State.outString_conclude_cases s.trapEntry putspBytes _ (encode (.trapPutsp x)) 0x0024 with
      ⟨n, bs, -, e⟩ | ⟨n, bs, e⟩ | ⟨hz, e⟩
    · exact .inl ⟨_, e⟩
    · exact .inl ⟨_, e⟩
    · exact .inr ⟨e, hz, x, .inr rfl⟩

/-- A fetch reads memory plainly, or it polls KBSR, and then the word is one of two and no TRAP. -/
theorem fetch_value_cases {w : Word} (h : s.fetch = .value w u) :
    (s.pc ≠ kbsr ∧ w = s.memPlain s.pc ∧ u = s.setPc (s.pc + 1)) ∨ (decode w).isTrap = false := by
  rcases (s.setPc (s.pc + 1)).memRead_cases s.pc with ⟨hpc, e⟩ | ⟨-, -, e⟩ | ⟨-, b, rest, -, e⟩ | ⟨-, rest, -, e⟩ <;>
    cases h.symm.trans e
  · exact .inl ⟨hpc, rfl, rfl⟩
  · exact .inr rfl
  · exact .inr rfl

/-- The fetch of a TRAP word was plain. -/
theorem fetch_trap {w : Word} (h : s.fetch = .value w u) (htrap : (decode w).isTrap = true) :
    w = s.memPlain s.pc ∧ u = s.setPc (s.pc + 1) := by
  rcases fetch_value_cases h with ⟨-, hw, hu⟩ | hno
  · exact ⟨hw, hu⟩
  · exact absurd (hno.symm.trans htrap) Bool.false_ne_true

theorem decode_row {w m x : Word} (h : decode w = i) (hrow : i.tableRow = (m, x)) : w &&& m = x := by
  have := (decode_readsAs w).row
  rwa [h, hrow] at this

/-- A Running block makes a step, but one of a string routine in a memory with no end of string. -/
theorem step_defined (hs : s.status = .running) :
    (∃ t, step s = .next t) ∨
    (step s = .fault .diverge ∧ (∀ a, s.memPlain a ≠ 0) ∧
      (s.memPlain s.pc &&& 0xF0FF = 0xF022 ∨ s.memPlain s.pc &&& 0xF0FF = 0xF024)) := by
  rcases step_cases s with ⟨hs', -⟩ | ⟨hs', -⟩ | ⟨-, w, u, hu, e⟩ | ⟨-, u, -, e⟩
  · cases hs.symm.trans hs'
  · cases hs.symm.trans hs'
  · rw [e]
    refine (exec_defined (decode w) u).imp_right fun ⟨hdiv, hz, x, hx⟩ => ?_
    have htrap : (decode w).isTrap = true := by rcases hx with hx | hx <;> rw [hx] <;> rfl
    obtain ⟨rfl, rfl⟩ := fetch_trap hu htrap
    exact ⟨hdiv, hz, hx.imp (decode_row · rfl) (decode_row · rfl)⟩
  · exact .inl ⟨_, e⟩

/-- Settles O53: the only step of a Running block with no next state is the Diverge of a string with no end. -/
theorem everyStepIsDefined : Obligations.EveryStepIsDefined := by
  refine fun s => ⟨fun hs ⟨a, ha⟩ => ?_, fun r hr => ?_, fun f hs hf => ?_⟩
  · exact (step_defined hs).resolve_right fun ⟨_, hz, _⟩ => hz a ha
  · cases hs : s.status with
    | running => rcases step_defined hs with ⟨t, e⟩ | ⟨e, -⟩ <;> cases hr.symm.trans e
    | halted | faulted => simp [step, hs] at hr
  · rcases step_defined hs with ⟨t, e⟩ | ⟨e, hz, hw⟩ <;> cases hf.symm.trans e
    exact ⟨rfl, hz, hw⟩

/-! ### The end of a run (R29, R206) -/

theorem Op.halted_of_halted (hi : ∀ x, i ≠ .trapHalt x) (hop : Op i u v) (hv : v.status = .halted) :
    u.status = .halted := by
  cases hop with
  | poll _ hp => cases hp <;> exact hv
  | raise => cases hv
  | halt h => exact absurd h.choose_spec (hi _)
  | _ => exact hv

theorem exec_halted (h : exec i s = .next t) (hs : s.status ≠ .halted) (ht : t.status = .halted) :
    ∃ x, i = .trapHalt x := by
  by_contra hi
  push Not at hi
  rcases exec_ops h with ⟨-, rfl, -⟩ | hops
  · exact hs ht
  · have hkept := hops.lift (R := fun u v => v.status = .halted → u.status = .halted) (fun _ => id)
      (fun _ _ _ h1 h2 => h1 ∘ h2) fun _ _ => Op.halted_of_halted hi
    exact hs ((s.entry_congr State.status i rfl) ▸ hkept ht)

theorem execTrapHalt_halted {x : BitVec 4} (h : execTrapHalt x s = .next t) (ht : t.status = .halted) :
    t.fault = s.fault ∧ t.trace = s.trace ++ (haltLine.map .write ++ [.flush]) := by
  rw [execTrapHalt_eq] at h
  rcases State.emitAll_conclude_cases s.trapEntry (haltLine.map .write ++ [.flush]) (encode (.trapHalt x)) 0x0025
    (fun s' => .next (s'.setStatus .halted)) with ⟨-, e⟩ | ⟨n, -, -, -, e⟩ <;> cases h.symm.trans e
  · exact ⟨rfl, rfl⟩
  · cases ht

/-- Settles O51: only HALT's operations set Halted, and HALT halts only after all its output is done. -/
theorem onlyHaltEndsARun : Obligations.OnlyHaltEndsARun := by
  intro s t hs h ht
  rcases step_cases s with ⟨hs', -⟩ | ⟨hs', -⟩ | ⟨-, w, u, hu, e⟩ | ⟨-, u, -, e⟩
  · cases hs.symm.trans hs'
  · cases hs.symm.trans hs'
  · have hexec : exec (decode w) u = .next t := e.symm.trans h
    have hrunning : u.status ≠ .halted := by
      rcases memRead_value_op hu with rfl | hp
      · simp [hs]
      · cases hp <;> simp [hs]
    obtain ⟨x, hx⟩ := exec_halted hexec hrunning ht
    obtain ⟨rfl, rfl⟩ := fetch_trap hu (by rw [hx]; rfl)
    rw [hx] at hexec
    exact ⟨decode_row hx rfl, execTrapHalt_halted (s := s.setPc (s.pc + 1)) hexec ht⟩
  · cases h.symm.trans e
    cases ht

end Sys2Proof.Machine
end

section
/-! SUPPORT. COND (R28): who writes it when a step completes, and that only BR reads it. Every operation on the state
commutes with a change of COND, so an instruction that does not test COND gives the same outcome but for COND. -/

namespace Sys2Proof.Machine

variable {s t : State} {i : Instr}

/-! ### Who writes COND -/

theorem State.loadFrom_setsCond {dr : RegNum} {a ir : Word} (h : s.loadFrom dr a ir = .next t) :
    t.cond = condOf (t.reg dr) ∨ t.status = .faulted := by
  rcases s.loadFrom_cases dr a ir with ⟨w, u, -, e⟩ | ⟨u, -, e⟩ <;> cases h.symm.trans e
  · exact .inl (by simp)
  · exact .inr rfl

theorem execLdi_setsCond {dr : RegNum} {off : BitVec 9} (h : execLdi dr off s = .next t) :
    t.cond = condOf (t.reg dr) ∨ t.status = .faulted := by
  rcases execLdi_cases s dr off with ⟨p, u, w, v, -, -, e⟩ | ⟨p, u, v, -, -, e⟩ | ⟨u, -, e⟩ <;> cases h.symm.trans e
  · exact .inl (by simp)
  · exact .inr rfl
  · exact .inr rfl

theorem execTrapGetc_setsCond {x : BitVec 4} (h : execTrapGetc x s = .next t) :
    t.cond = condOf (t.reg 0) ∨ t.status = .faulted ∨ t = s.held := by
  rcases execTrapGetc_cases s x with ⟨b, rest, -, e⟩ | ⟨rest, -, e⟩ | ⟨-, e⟩ <;> cases h.symm.trans e
  · exact .inl (by simp)
  · exact .inr (.inl rfl)
  · exact .inr (.inr rfl)

theorem execTrapIn_setsCond {x : BitVec 4} (h : execTrapIn x s = .next t) :
    t.cond = condOf (t.reg 0) ∨ t.status = .faulted ∨ t = s.held := by
  rcases execTrapIn_cases s x with
    ⟨b, rest, -, e⟩ | ⟨n, -, e⟩ | ⟨b, rest, n, -, -, e⟩ | ⟨rest, -, e⟩ | ⟨-, e⟩ <;> cases h.symm.trans e
  · exact .inl (by simp)
  · exact .inr (.inl rfl)
  · exact .inr (.inl rfl)
  · exact .inr (.inl rfl)
  · exact .inr (.inr rfl)

/-- An instruction of the flag-updating set sets COND from its destination, unless it faults or holds. -/
theorem exec_setsCond {d : RegNum} (h : exec i s = .next t) (hd : i.flagDest = some d) :
    t.cond = condOf (t.reg d) ∨ t.status = .faulted ∨ t = s.held := by
  cases i with
  | add | addImm | and | andImm | not | lea =>
    cases hd
    cases h
    exact .inl (by simp)
  | ld | ldr =>
    cases hd
    exact (State.loadFrom_setsCond h).imp_right .inl
  | ldi =>
    cases hd
    exact (execLdi_setsCond h).imp_right .inl
  | trapGetc =>
    cases hd
    exact execTrapGetc_setsCond h
  | trapIn =>
    cases hd
    exact execTrapIn_setsCond h
  | _ => cases hd

theorem exec_cond_of_flagDest {d : RegNum} (h : exec i s = .next t) (hd : i.flagDest = some d) :
    t.cond = condOf (t.reg d) ∨ (t.cond = s.cond ∧ (t.status = .faulted ∨ t = s.held)) := by
  rcases exec_cond h with hkept | ⟨d', hd', hset⟩
  · exact (exec_setsCond h hd).imp_right fun hstop => ⟨hkept, hstop⟩
  · cases hd.symm.trans hd'
    exact .inl hset

theorem exec_cond_of_no_flagDest (h : exec i s = .next t) (hd : i.flagDest = none) : t.cond = s.cond := by
  rcases exec_cond h with hkept | ⟨d, hd', -⟩
  · exact hkept
  · cases hd.symm.trans hd'

/-! ### Who reads COND: the operations commute with a change of it -/

/-- The same access, reply or output, reached in the states changed by `f`. -/
def Access.map (f : State → State) : Access → Access
  | .value w s => .value w (f s)
  | .inputFailure s => .inputFailure (f s)

def Reply.map (f : State → State) : Reply → Reply
  | .byte b s => .byte b (f s)
  | .failed s => .failed (f s)
  | .hold => .hold

def Output.map (f : State → State) : Output → Output
  | .done s => .done (f s)
  | .failed s => .failed (f s)
  | .endless => .endless

/-- The same outcome with COND blanked. -/
def forgetCond : Host.Outcome State Fault Refusal → Host.Outcome State Fault Refusal
  | .next s => .next (s.setCond 0)
  | .fault f => .fault f
  | .refused r => .refused r

section
variable (s : State) (c : Word)

theorem State.pollKeyboard_setCond : (s.setCond c).pollKeyboard = s.pollKeyboard.map (·.setCond c) := by
  unfold State.pollKeyboard
  rw [State.setCond_input]
  match s.input with
  | [] | .wait :: _ | .byte _ :: _ | .fail :: _ => rfl

theorem State.memRead_setCond (a : Word) : (s.setCond c).memRead a = (s.memRead a).map (·.setCond c) := by
  unfold State.memRead
  split
  · exact s.pollKeyboard_setCond c
  · rfl

theorem State.readByte_setCond : (s.setCond c).readByte = s.readByte.map (·.setCond c) := by
  unfold State.readByte
  rw [State.setCond_input]
  match s.input with
  | [] | .wait :: _ | .byte _ :: _ | .fail :: _ => rfl

theorem State.emit_setCond (e : Event) : (s.setCond c).emit e = (s.emit e).map (·.setCond c) := by
  unfold State.emit
  rw [State.setCond_outAnswers]
  match s.outAnswers with
  | [] | .ok :: _ | .fail :: _ => rfl

theorem Output.map_andThen (o : Output) {k : State → Output}
    (hk : ∀ u : State, k (u.setCond c) = (k u).map (·.setCond c)) :
    (o.map (·.setCond c)).andThen k = (o.andThen k).map (·.setCond c) := by
  cases o with
  | done u => exact hk u
  | failed | endless => rfl

theorem State.outBytes_setCond (bs : List Byte) : (s.setCond c).outBytes bs = (s.outBytes bs).map (·.setCond c) := by
  induction bs generalizing s with
  | nil => rfl
  | cons b bs ih =>
    simp only [State.outBytes, State.outByte, State.emit_setCond]
    exact Output.map_andThen c _ ih

theorem State.outString_setCond (f : Word → List Byte) (n : Nat) (p : Word) :
    State.outString f n p (s.setCond c) = (State.outString f n p s).map (·.setCond c) := by
  induction n generalizing s p with
  | zero => rfl
  | succ n ih =>
    simp only [State.outString, State.setCond_memPlain, State.outBytes_setCond]
    split
    · rfl
    · exact Output.map_andThen c _ fun u => ih u (p + 1)

theorem forgetCond_andThen (r : Access) (ir : Word) {k : Word → State → Host.Outcome State Fault Refusal}
    (hk : ∀ w u, forgetCond (k w (u.setCond c)) = forgetCond (k w u)) :
    forgetCond ((r.map (·.setCond c)).andThen ir k) = forgetCond (r.andThen ir k) := by
  cases r with
  | value w u => exact hk w u
  | inputFailure => rfl

theorem forgetCond_conclude (o : Output) (ir v : Word) {k k' : State → Host.Outcome State Fault Refusal}
    (hk : ∀ u, forgetCond (k (u.setCond c)) = forgetCond (k' u)) :
    forgetCond ((o.map (·.setCond c)).conclude ir v k) = forgetCond (o.conclude ir v k') := by
  cases o with
  | done u => exact hk u
  | failed | endless => rfl

/-- Output and a Flush, concluded by a continuation that does not read COND. -/
theorem forgetCond_flush (o : Output) (ir v : Word) {k : State → Host.Outcome State Fault Refusal}
    (hk : ∀ u, forgetCond (k (u.setCond c)) = forgetCond (k u)) :
    forgetCond (((o.map (·.setCond c)).andThen State.flush).conclude ir v k) =
      forgetCond ((o.andThen State.flush).conclude ir v k) := by
  rw [Output.map_andThen c o fun u => u.emit_setCond c .flush]
  exact forgetCond_conclude c _ _ _ hk

theorem forgetCond_loadFrom (dr : RegNum) (a ir : Word) :
    forgetCond ((s.setCond c).loadFrom dr a ir) = forgetCond (s.loadFrom dr a ir) := by
  unfold State.loadFrom
  rw [State.memRead_setCond]
  exact forgetCond_andThen c _ _ fun _ _ => rfl

theorem forgetCond_execLdi (dr : RegNum) (off : BitVec 9) :
    forgetCond (execLdi dr off (s.setCond c)) = forgetCond (execLdi dr off s) := by
  unfold execLdi
  rw [State.memRead_setCond]
  exact forgetCond_andThen c _ _ fun p u => forgetCond_loadFrom u c dr p _

theorem forgetCond_execSti (sr : RegNum) (off : BitVec 9) :
    forgetCond (execSti sr off (s.setCond c)) = forgetCond (execSti sr off s) := by
  unfold execSti
  rw [State.memRead_setCond]
  exact forgetCond_andThen c _ _ fun _ _ => rfl

theorem forgetCond_execTrapGetc (x : BitVec 4) :
    forgetCond (execTrapGetc x (s.setCond c)) = forgetCond (execTrapGetc x s) := by
  have hread : (s.setCond c).trapEntry.readByte = s.trapEntry.readByte.map (·.setCond c) :=
    s.trapEntry.readByte_setCond c
  unfold execTrapGetc
  rw [hread]
  cases s.trapEntry.readByte <;> rfl

theorem forgetCond_execTrapOut (x : BitVec 4) :
    forgetCond (execTrapOut x (s.setCond c)) = forgetCond (execTrapOut x s) := by
  have hwrite : ∀ b, (s.setCond c).trapEntry.outByte b = (s.trapEntry.outByte b).map (·.setCond c) := fun b =>
    s.trapEntry.emit_setCond c (.write b)
  unfold execTrapOut
  rw [hwrite]
  exact forgetCond_flush c _ _ _ fun _ => rfl

theorem forgetCond_execTrapHalt (x : BitVec 4) :
    forgetCond (execTrapHalt x (s.setCond c)) = forgetCond (execTrapHalt x s) := by
  have hline : (s.setCond c).trapEntry.outBytes haltLine = (s.trapEntry.outBytes haltLine).map (·.setCond c) :=
    s.trapEntry.outBytes_setCond c haltLine
  unfold execTrapHalt
  rw [hline]
  exact forgetCond_flush c _ _ _ fun _ => rfl

theorem forgetCond_outString_flush (f : Word → List Byte) (p ir v : Word) :
    forgetCond (((State.outString f Config.memorySize p (s.setCond c)).andThen State.flush).conclude ir v .next) =
      forgetCond (((State.outString f Config.memorySize p s).andThen State.flush).conclude ir v .next) := by
  rw [State.outString_setCond]
  exact forgetCond_flush c _ _ _ fun _ => rfl

theorem forgetCond_execTrapIn (x : BitVec 4) :
    forgetCond (execTrapIn x (s.setCond c)) = forgetCond (execTrapIn x s) := by
  have hprompt : (s.setCond c).trapEntry.outBytes inPrompt = (s.trapEntry.outBytes inPrompt).map (·.setCond c) :=
    s.trapEntry.outBytes_setCond c inPrompt
  unfold execTrapIn
  rw [hprompt]
  refine forgetCond_conclude c _ _ _ fun u => ?_
  rw [State.readByte_setCond]
  cases u.readByte with
  | byte b v =>
    dsimp only [Reply.map, State.outByte]
    rw [State.emit_setCond]
    exact forgetCond_flush c _ _ _ fun _ => rfl
  | failed | hold => rfl

/-- R28: BR is the only instruction whose effect depends on COND. -/
theorem forgetCond_exec (i : Instr) (hi : i.isBr = false) :
    forgetCond (exec i (s.setCond c)) = forgetCond (exec i s) := by
  cases i with
  | br => cases hi
  | ld | ldr => exact forgetCond_loadFrom s c _ _ _
  | ldi => exact forgetCond_execLdi s c _ _
  | sti => exact forgetCond_execSti s c _ _
  | trapGetc x => exact forgetCond_execTrapGetc s c x
  | trapIn x => exact forgetCond_execTrapIn s c x
  | trapOut x => exact forgetCond_execTrapOut s c x
  | trapHalt x => exact forgetCond_execTrapHalt s c x
  | trapPuts | trapPutsp => exact forgetCond_outString_flush s.trapEntry c _ _ _ _
  | add | addImm | and | andImm | not | lea | st | str | jsr | jsrr | jmp | ret | rti | reserved | trapUnknown => rfl

end

/-- Settles O46: who writes COND, and that an outcome with COND blanked does not depend on it but for BR. -/
theorem condWrittenAndReadOnlyBy : Obligations.CondWrittenAndReadOnlyBy := by
  refine ⟨fun i s t h => ?_, fun i s t c hi h => ?_⟩
  · split
    · next hd => exact exec_cond_of_no_flagDest h hd
    · next d hd => exact exec_cond_of_flagDest h hd
  · have hsame : forgetCond (exec i (s.setCond c)) = .next (t.setCond 0) := by
      rw [forgetCond_exec s c i hi, h]
      rfl
    cases ht' : exec i (s.setCond c) with
    | next t' =>
      rw [ht'] at hsame
      exact ⟨t', rfl, Host.Outcome.next.inj hsame⟩
    | fault | refused => rw [ht'] at hsame; cases hsame

end Sys2Proof.Machine
end

section
/-! SUPPORT. MemRead (R52 to R54), the fetch, and the one-operation instructions that are left. -/

namespace Sys2Proof.Machine

open Sys2Proof.Claims

variable {s t u : State} {w ir : Word} {rest : List InAnswer}

/-! ### The input byte (R53) -/

/-- Settles O8: R53 for both values of P_INPUT_EXT; a byte below 0x80 has sign bit 0. -/
theorem inputByteExtension : Obligations.InputByteExtension := by
  refine ⟨fun _ => rfl, fun _ => rfl, fun b hb => ?_, fun p => ?_⟩
  · refine BitVec.signExtend_eq_setWidth_of_msb_false ?_
    rwa [BitVec.msb_eq_getLsbD_last]
  · cases p <;> decide

/-! ### MemRead -/

/-- What a fault leaves of a state `u` that has kept to the frame of `stoppedBy`. -/
theorem stoppedBy_raise {wrote : RegNum → Prop} {code : FaultCode} {info : Word} (hregs : sameRegsBut wrote s u)
    (hpc : u.pc = s.pc) (hcond : u.cond = s.cond) (hmem : sameMemory s u) (hext : u.inputExt = s.inputExt) :
    stoppedBy s (u.raise code ir info) wrote code ir info :=
  ⟨⟨rfl, by rw [State.raise_fault, hpc]⟩, hregs, hpc, hcond, hmem, hext⟩

theorem pollFailed_raise (s : State) (ir : Word) (rest : List InAnswer) :
    pollFailed s (((s.setInput rest).log (.probe true)).raise .inputFailure ir kbsr) ir rest :=
  ⟨stoppedBy_raise (fun _ _ => rfl) rfl rfl (fun _ => rfl) rfl, rfl, rfl, rfl⟩

theorem memRead_kbsr_noKey (h : s.noKey) : ∃ u, s.memRead kbsr = .value 0x0000 u ∧ u.memPlain kbsr = 0x0000 ∧
    sameMemoryBut (· = kbsr) s u ∧
    u = { s with mem := u.mem, input := s.input.tail, trace := s.trace ++ [.probe false] } :=
  ⟨_, (s.memRead_kbsr).trans (State.pollKeyboard_noKey h), State.memPlain_memWrite_self _ _ _,
    fun _ ha => State.memPlain_memWrite_ne _ _ ha, rfl⟩

theorem memRead_kbsr_byte {b : Byte} (h : s.input = .byte b :: rest) : ∃ u, s.memRead kbsr = .value 0x8000 u ∧
    u.memPlain kbsr = 0x8000 ∧ u.memPlain kbdr = ext16 s.inputExt b ∧
    sameMemoryBut (fun a => a = kbsr ∨ a = kbdr) s u ∧
    u = { s with mem := u.mem, input := rest, trace := s.trace ++ [.probe true, .read b] } := by
  refine ⟨_, (s.memRead_kbsr).trans (State.pollKeyboard_byte h), State.memPlain_memWrite_self _ _ _, ?_,
    (PollOp.byte h).sameMemoryBut, ?_⟩
  · rw [State.memPlain_memWrite_ne _ _ (by decide), State.memPlain_memWrite_self]
  · simp [State.memWrite, State.log, State.setInput]

theorem memRead_kbsr_fail (h : s.input = .fail :: rest) :
    s.memRead kbsr = .inputFailure ((s.setInput rest).log (.probe true)) :=
  (s.memRead_kbsr).trans (State.pollKeyboard_fail h)

/-- Settles O10: a plain read, or one of the three answers of the keyboard. -/
theorem memReadRule : Obligations.MemReadRule := by
  refine ⟨rfl, rfl, fun s => ⟨fun a => s.memRead_of_ne, memRead_kbsr_noKey, fun b rest => memRead_kbsr_byte,
    fun rest h => ⟨_, memRead_kbsr_fail h, rfl, fun ir k => ?_⟩⟩⟩
  rw [memRead_kbsr_fail h]
  exact ⟨_, rfl, pollFailed_raise s ir rest⟩

/-- Settles O11: a MemRead of KBSR answers by the keyboard, whatever the cell holds. -/
theorem kbsrWriteNeverReadBack : Obligations.KbsrWriteNeverReadBack := by
  refine fun s v v' => ⟨State.memPlain_memWrite_self s kbsr v, fun w u h => ?_⟩
  rcases (s.memWrite kbsr v).memRead_cases kbsr with
    ⟨hne, -⟩ | ⟨-, hi, e⟩ | ⟨-, b, rest, hi, e⟩ | ⟨-, rest, -, e⟩
  · exact absurd rfl hne
  · cases h.symm.trans e
    obtain ⟨u', hu', -⟩ := memRead_kbsr_noKey (s := s.memWrite kbsr v') hi
    exact ⟨.inl rfl, u', hu'⟩
  · cases h.symm.trans e
    obtain ⟨u', hu', -⟩ := memRead_kbsr_byte (s := s.memWrite kbsr v') hi
    exact ⟨.inr rfl, u', hu'⟩
  · cases h.symm.trans e

/-! ### The meanings of four instructions, as updates of the state -/

theorem exec_rti (x : BitVec 12) (s : State) :
    exec (.rti x) s = .next (s.raise .illegalOpcodeRti (encode (.rti x)) 0x0008) := rfl

theorem exec_reserved (x : BitVec 12) (s : State) :
    exec (.reserved x) s = .next (s.raise .illegalOpcodeReserved (encode (.reserved x)) 0x000D) := rfl

theorem exec_trapUnknown (x : BitVec 4) (v : BitVec 8) (s : State) :
    exec (.trapUnknown x v) s =
      .next ((s.setReg 7 s.pc).raise .unknownTrap (encode (.trapUnknown x v)) (v.setWidth 16)) := rfl

theorem exec_jsrr_eq_link_setPc (base : RegNum) (xHi : BitVec 2) (xLo : BitVec 6) (s : State) :
    exec (.jsrr base xHi xLo) s = .next ((s.setReg 7 s.pc).setPc ((s.setReg 7 s.pc).reg base)) := rfl

/-! ### The step -/

/-- R111 away from KBSR: the step runs the word at PC. -/
theorem step_of_pc_ne (hs : s.status = .running) (hpc : s.pc ≠ kbsr) :
    step s = exec (decode (s.memPlain s.pc)) (s.setPc (s.pc + 1)) :=
  step_of_fetch_value hs (State.memRead_of_ne (s.setPc (s.pc + 1)) hpc)

/-- Settles O12: the step runs the word at PC, and a well-formed instruction's word decodes to it. -/
theorem stepRunsDecoded : Obligations.StepRunsDecoded := by
  refine fun s i hs hpc hwf => ⟨fun hword => ?_, ?_⟩
  · rw [step_of_pc_ne hs hpc, hword, encodeThenDecode i hwf]
  · have hword : (s.withFetchWord 16 (encode i).toNat).memPlain s.pc = encode i := by
      rw [State.withFetchWord, State.memPlain_memWrite_self, BitVec.ofNat_toNat, BitVec.setWidth_eq]
    have hstep := step_of_pc_ne (s := s.withFetchWord 16 (encode i).toNat) hs hpc
    rw [hstep]
    exact congrArg₂ exec ((congrArg decode hword).trans (encodeThenDecode i hwf)) rfl

/-- Settles O15: R110. -/
theorem stoppedBlockTakesNoStep : Obligations.StoppedBlockTakesNoStep := fun s =>
  ⟨fun h => by simp only [step, h], fun h => by simp only [step, h]⟩

/-- Settles O14: the fetch polls the keyboard; the words it can give are BR with mask 000 and RTI. -/
theorem fetchFromKbsr : Obligations.FetchFromKbsr := by
  intro s hs hpc
  have hfetch : s.fetch = (s.setPc (s.pc + 1)).memRead kbsr := by rw [State.fetch, hpc]
  have hnext : s.pc + 1 = 0xFE01 := by rw [hpc]; decide
  refine ⟨fun h => ?_, fun b rest h => ?_, fun rest h => ?_⟩
  · obtain ⟨u, hu, hkbsr, hmem, hframe⟩ := memRead_kbsr_noKey (s := s.setPc (s.pc + 1)) h
    have hexec : exec (decode 0x0000) u = .next u := exec_br_of_not_taken 0 (BitVec.zero_and ..)
    refine ⟨u, (step_of_fetch_value hs (hfetch.trans hu)).trans hexec, ?_, hkbsr, hmem, ?_, ?_, ?_⟩ <;> rw [hframe]
    · exact hs
    · exact hnext
    · rfl
    · rfl
  · obtain ⟨u, hu, hkbsr, hkbdr, hmem, hframe⟩ := memRead_kbsr_byte (s := s.setPc (s.pc + 1)) h
    have hexec : exec (decode 0x8000) u = .next (u.raise .illegalOpcodeRti 0x8000 0x0008) := by
      rw [show decode 0x8000 = .rti 0 by decide, exec_rti, show encode (.rti 0) = 0x8000 by decide]
    refine ⟨_, (step_of_fetch_value hs (hfetch.trans hu)).trans hexec, rfl, ?_, hkbsr, hkbdr, hmem, ?_⟩
    · have hfault : u.pc - 1 = 0xFE00 := by rw [hframe, State.setPc_pc, hnext]; decide
      rw [State.raise_fault, hfault]
    · rw [hframe]
      exact ⟨rfl, hnext, rfl, rfl⟩
  · have hu := memRead_kbsr_fail (s := s.setPc (s.pc + 1)) h
    refine ⟨_, step_of_fetch_inputFailure hs (hfetch.trans hu), rfl, ?_, fun _ => rfl, rfl, hnext, rfl, rfl⟩
    rw [State.fetchFailed, State.raise_fault, State.log_pc, State.setInput_pc, State.setPc_pc, hnext]
    rfl

/-! ### Instructions of one write or one fault -/

/-- FAULT.ir is the word fetched: what a word decodes to encodes to it. -/
theorem encode_of_decode {i : Instr} (h : decode w = i) : encode i = w :=
  h ▸ (decode_readsAs w).encode_eq

/-- A word whose instruction takes its fault at once. -/
theorem stoppedBy_of_decode {i : Instr} {code : FaultCode} {info : Word} (hdecode : decode w = i)
    (hexec : exec i s = .next (s.raise code (encode i) info)) :
    decode w = i ∧ ∃ t, exec (decode w) s = .next t ∧ stoppedBy s t (fun _ => False) code w info ∧ sameDevices s t := by
  rw [encode_of_decode hdecode] at hexec
  exact ⟨hdecode, _, hdecode ▸ hexec, stoppedBy_raise (fun _ _ => rfl) rfl rfl (fun _ => rfl) rfl, rfl, ⟨rfl, rfl⟩, rfl⟩

/-- Settles O43: the two unused opcodes take their faults at once. -/
theorem unusedOpcodesFault : Obligations.UnusedOpcodesFault := fun _ s =>
  ⟨fun h => stoppedBy_of_decode (decode_rti h) (exec_rti _ s),
   fun h => stoppedBy_of_decode (decode_reserved h) (exec_reserved _ s)⟩

/-- Settles O39: the link, and then the fault. -/
theorem unknownTrapResult : Obligations.UnknownTrapResult := by
  intro w s hw hv
  have hdecode := decode_trapUnknown hw hv
  have hexec : exec (decode w) s = .next ((s.setReg 7 s.pc).raise .unknownTrap w ((field7to0 w).setWidth 16)) := by
    rw [hdecode, exec_trapUnknown, encode_of_decode hdecode]
  refine ⟨hdecode, _, hexec, ?_, s.reg_setReg_self 7 s.pc, rfl, ⟨rfl, rfl⟩, rfl⟩
  exact stoppedBy_raise (fun _ hr => s.reg_setReg_ne s.pc hr) rfl rfl (fun _ => rfl) rfl

/-- Settles O30: the base is read after the link is written, so BaseR 7 reads the link. -/
theorem jsrrResult : Obligations.JsrrResult := by
  intro w s hw
  refine ⟨decode_jsrr hw, jumped_of_decode (decode_jsrr hw) (exec_jsrr_eq_link_setPc _ _ _ s) ?_⟩
  rw [State.reg_setReg]
  exact s.jumped_link_setPc _

/-- Settles O28: a legal COND is one of the three one-bit masks. -/
theorem branchMaskExtremes : Obligations.BranchMaskExtremes := by
  intro s off hs
  have hback : s.pc + sext (0x1FF : BitVec 9) = s.pc - 1 := by
    rw [show sext (0x1FF : BitVec 9) = -1 by decide, BitVec.sub_eq_add_neg]
  have hall : (0b111 : BitVec 3).setWidth 16 &&& s.cond ≠ 0 := by
    rcases hs with h | h | h <;> rw [h] <;> decide
  refine ⟨exec_br_of_not_taken off (BitVec.zero_and ..), exec_br_of_taken off hall,
    hback ▸ exec_br_of_taken 0x1FF hall, ?_, ?_, ?_⟩ <;>
  · rw [State.branchTaken_iff]
    rcases hs with h | h | h <;> rw [h] <;> decide

/-- Settles O56: the table of R33, and the launch with no image. -/
theorem resetValues : Obligations.ResetValues :=
  ⟨by decide, rfl, rfl, rfl, rfl, fun _ => rfl, rfl, rfl⟩

end Sys2Proof.Machine
end

section
/-! SUPPORT. The loads and STI (R150 to R152, R155, R157): a plain read away from KBSR, a poll at it. -/

namespace Sys2Proof.Machine

open Sys2Proof.Claims

variable {s u : State} {a w ir : Word} {dr sr : RegNum} {off : BitVec 9} {rest : List InAnswer}
  {o : Host.Outcome State Fault Refusal}

/-! ### What a poll leaves beside memory -/

theorem polled_of_eq {m : Memory} {es : List Event}
    (h : u = { s with mem := m, input := rest, trace := s.trace ++ es }) :
    u.regs = s.regs ∧ u.cond = s.cond ∧ polled s u rest es := by
  subst h
  exact ⟨rfl, rfl, rfl, ⟨rfl, rfl⟩, rfl, rfl, rfl, rfl⟩

theorem polled_writeResult {es : List Event} (v : Word) (h : polled s u rest es) :
    polled s (u.writeResult dr v) rest es := by
  rwa [State.writeResult_eq]

theorem sameRegsBut_writeResult (v : Word) (h : u.regs = s.regs) : sameRegsBut (· = dr) s (u.writeResult dr v) := by
  intro r hr
  rw [State.writeResult_eq, State.setCond_reg, State.reg_setReg_ne _ _ hr, State.reg, h]
  rfl

/-- A load whose one poll of KBSR goes on with `k`: DR gets `vNone` from the word 0x0000 and `vKey` from 0x8000. -/
theorem polledLoad_of_andThen {vNone vKey : Word} {k : Word → State → Host.Outcome State Fault Refusal}
    (ho : o = (s.memRead kbsr).andThen ir k)
    (hnone : ∀ u, sameMemoryBut (fun a => a = kbsr ∨ a = kbdr) s u → k 0x0000 u = .next (u.writeResult dr vNone))
    (hkey : ∀ u, sameMemoryBut (fun a => a = kbsr ∨ a = kbdr) s u → k 0x8000 u = .next (u.writeResult dr vKey)) :
    polledLoad o ir s dr vNone vKey := by
  subst ho
  refine ⟨fun h => ?_, fun b rest h => ?_, fun rest h => ?_⟩
  · obtain ⟨u, hu, hkbsr, hmem, hframe⟩ := memRead_kbsr_noKey h
    obtain ⟨hregs, -, hpolled⟩ := polled_of_eq hframe
    refine ⟨u.writeResult dr vNone, ?_, by simp, by simp, sameRegsBut_writeResult _ hregs, by simpa using hkbsr,
      fun a ha => by simpa using hmem a ha, polled_writeResult _ hpolled⟩
    rw [hu, Access.andThen_value, hnone u fun a ha => hmem a (not_or.mp ha).1]
  · obtain ⟨u, hu, hkbsr, hkbdr, hmem, hframe⟩ := memRead_kbsr_byte h
    obtain ⟨hregs, -, hpolled⟩ := polled_of_eq hframe
    refine ⟨u.writeResult dr vKey, ?_, by simp, by simp, sameRegsBut_writeResult _ hregs, by simpa using hkbsr,
      by simpa using hkbdr, fun a ha => by simpa using hmem a ha, polled_writeResult _ hpolled⟩
    rw [hu, Access.andThen_value, hkey u hmem]
  · rw [memRead_kbsr_fail h]
    exact ⟨_, rfl, pollFailed_raise s ir rest⟩

/-! ### Loads -/

theorem State.loadFrom_of_ne (s : State) (dr : RegNum) (ir : Word) (h : a ≠ kbsr) :
    s.loadFrom dr a ir = .next (s.writeResult dr (s.memPlain a)) := by
  rw [State.loadFrom, State.memRead_of_ne s h, Access.andThen_value]

/-- R150: a load from any address. -/
theorem loads_loadFrom (s : State) (dr : RegNum) (a ir : Word) : loads (s.loadFrom dr a ir) ir s dr a := by
  refine ⟨fun h => ⟨_, s.loadFrom_of_ne dr ir h, s.resultWritten_writeResult dr _⟩, ?_⟩
  rintro rfl
  exact polledLoad_of_andThen rfl (fun _ _ => rfl) fun _ _ => rfl

theorem exec_ld_eq_loadFrom (dr : RegNum) (off : BitVec 9) (s : State) :
    exec (.ld dr off) s = s.loadFrom dr (s.pc + sext off) (encode (.ld dr off)) := rfl

theorem exec_ldr_eq_loadFrom (dr base : RegNum) (off : BitVec 6) (s : State) :
    exec (.ldr dr base off) s = s.loadFrom dr (s.reg base + sext off) (encode (.ldr dr base off)) := rfl

theorem exec_ldi_eq_andThen (dr : RegNum) (off : BitVec 9) (s : State) :
    exec (.ldi dr off) s = (s.memRead (s.pc + sext off)).andThen (encode (.ldi dr off)) fun p u =>
      u.loadFrom dr p (encode (.ldi dr off)) := rfl

theorem exec_sti_eq_andThen (sr : RegNum) (off : BitVec 9) (s : State) :
    exec (.sti sr off) s = (s.memRead (s.pc + sext off)).andThen (encode (.sti sr off)) fun p u =>
      .next (u.memWrite p (u.reg sr)) := rfl

theorem exec_ldi_of_ne (dr : RegNum) (h : s.pc + sext off ≠ kbsr) :
    exec (.ldi dr off) s = s.loadFrom dr (s.memPlain (s.pc + sext off)) (encode (.ldi dr off)) := by
  rw [exec_ldi_eq_andThen, State.memRead_of_ne s h, Access.andThen_value]

theorem exec_sti_of_ne (sr : RegNum) (h : s.pc + sext off ≠ kbsr) :
    exec (.sti sr off) s = .next (s.memWrite (s.memPlain (s.pc + sext off)) (s.reg sr)) := by
  rw [exec_sti_eq_andThen, State.memRead_of_ne s h, Access.andThen_value]

/-- Settles O19: LD is the load from its PC-relative address. -/
theorem loadDirectResult : Obligations.LoadDirectResult := by
  intro w s hw
  have hdecode := decode_ld hw
  refine ⟨hdecode, ?_⟩
  rw [hdecode, exec_ld_eq_loadFrom, encode_of_decode hdecode]
  exact loads_loadFrom s _ _ w

/-- Settles O21: LDR is the load from base plus offset, the base read first. -/
theorem loadBaseOffsetResult : Obligations.LoadBaseOffsetResult := by
  intro w s hw
  have hdecode := decode_ldr hw
  refine ⟨hdecode, ?_⟩
  rw [hdecode, exec_ldr_eq_loadFrom, encode_of_decode hdecode]
  exact loads_loadFrom s _ _ w

/-- Settles O20: LDI is the load from the address its pointer cell gives; a poll gives 0x0000 or 0x8000, not KBSR. -/
theorem loadIndirectResult : Obligations.LoadIndirectResult := by
  intro w s hw
  have hdecode := decode_ldi hw
  have hir := encode_of_decode hdecode
  rw [hdecode]
  refine ⟨rfl, fun hptr => ?_, fun hptr => ?_⟩
  · rw [exec_ldi_of_ne _ hptr, hir]
    exact loads_loadFrom s _ _ w
  · refine polledLoad_of_andThen (by rw [exec_ldi_eq_andThen, hptr, hir]) (fun u hmem => ?_) fun u hmem => ?_
    · rw [u.loadFrom_of_ne _ w (by decide), hmem 0x0000 (by decide)]
    · rw [u.loadFrom_of_ne _ w (by decide), hmem 0x8000 (by decide)]

/-! ### STI -/

/-- Settles O24: STI stores at the address its pointer cell gives, after the poll where that cell is KBSR. -/
theorem storeIndirectResult : Obligations.StoreIndirectResult := by
  intro w s hw
  have hdecode := decode_sti hw
  have hir := encode_of_decode hdecode
  rw [hdecode]
  refine ⟨rfl, fun hptr => ⟨_, exec_sti_of_ne _ hptr, s.storeWritten_memWrite _ _⟩, fun hptr => ?_⟩
  rw [exec_sti_eq_andThen, hptr, hir]
  refine ⟨fun h => ?_, fun b rest h => ?_, fun rest h => ?_⟩
  · obtain ⟨u, hu, hkbsr, hmem, hframe⟩ := memRead_kbsr_noKey h
    obtain ⟨hregs, hcond, hpolled⟩ := polled_of_eq hframe
    have hreg : ∀ r, u.reg r = s.reg r := fun r => by rw [State.reg, hregs]; rfl
    rw [hu, Access.andThen_value, hreg]
    refine ⟨_, rfl, State.memPlain_memWrite_self _ _ _, ?_, fun a ha => ?_, hreg, hcond, hpolled⟩
    · rwa [State.memPlain_memWrite_ne _ _ (by decide)]
    · obtain ⟨hzero, hne⟩ := not_or.mp ha
      rw [State.memPlain_memWrite_ne _ _ hzero, hmem a hne]
  · obtain ⟨u, hu, hkbsr, hkbdr, hmem, hframe⟩ := memRead_kbsr_byte h
    obtain ⟨hregs, hcond, hpolled⟩ := polled_of_eq hframe
    have hreg : ∀ r, u.reg r = s.reg r := fun r => by rw [State.reg, hregs]; rfl
    rw [hu, Access.andThen_value, hreg]
    refine ⟨_, rfl, State.memPlain_memWrite_self _ _ _, ?_, ?_, fun a ha => ?_, hreg, hcond, hpolled⟩
    · rwa [State.memPlain_memWrite_ne _ _ (by decide)]
    · rwa [State.memPlain_memWrite_ne _ _ (by decide)]
    · obtain ⟨hready, hne⟩ := not_or.mp ha
      rw [State.memPlain_memWrite_ne _ _ hready, hmem a hne]
  · rw [memRead_kbsr_fail h]
    exact ⟨_, rfl, pollFailed_raise s w rest⟩

/-! ### The properties of 42_data_movement.md, 3 -/

theorem exec_lea_then_ldr (h : s.pc + sext off ≠ kbsr) :
    exec (.ldr dr dr 0) (s.writeResult dr (s.pc + sext off)) =
      .next ((s.writeResult dr (s.pc + sext off)).writeResult dr (s.memPlain (s.pc + sext off))) := by
  have haddr : (s.writeResult dr (s.pc + sext off)).reg dr + sext (0 : BitVec 6) = s.pc + sext off := by
    rw [show sext (0 : BitVec 6) = 0 by decide]
    simp
  rw [exec_ldr_eq_loadFrom, haddr, State.loadFrom_of_ne _ _ _ h]
  simp

theorem exec_sti_then_ldi (h : s.pc + sext off ≠ kbsr) (hptr : s.memPlain (s.pc + sext off) ≠ kbsr)
    (hself : s.memPlain (s.pc + sext off) ≠ s.pc + sext off) :
    exec (.ldi dr off) (s.memWrite (s.memPlain (s.pc + sext off)) (s.reg sr)) =
      .next ((s.memWrite (s.memPlain (s.pc + sext off)) (s.reg sr)).writeResult dr (s.reg sr)) := by
  rw [exec_ldi_of_ne (s := s.memWrite _ _) dr h, State.memWrite_pc, State.memPlain_memWrite_ne _ _ hself.symm,
    State.loadFrom_of_ne _ _ _ hptr, State.memPlain_memWrite_self]

/-- Settles O26: the two results are written over the same registers; the cell LDI reads is the one STI wrote. -/
theorem leaThenLdrIsLd : Obligations.LeaThenLdrIsLd := by
  refine fun s dr sr off h => ⟨?_, fun hptr hself => ?_⟩
  · refine ⟨_, _, _, exec_lea_eq_writeResult dr off s, exec_lea_then_ldr h,
      (exec_ld_eq_loadFrom dr off s).trans (s.loadFrom_of_ne dr _ h), by simp, by simp, fun r => ?_, fun a => by simp⟩
    by_cases hr : r = dr <;> simp [State.reg_setReg, hr]
  · exact ⟨_, _, exec_sti_of_ne sr h, exec_sti_then_ldi h hptr hself, by simp⟩

end Sys2Proof.Machine
end

section
/-! SUPPORT. The service routines (R200 to R207, R211, R258): each writes its link and emits a list of events; what the
devices answer decides how far it gets. -/

namespace Sys2Proof.Machine

open Sys2Proof.Claims

variable {s t u : State} {w ir vector : Word} {x : BitVec 4} {b : Byte} {rest : List InAnswer} {i : Instr}
  {n k : Nat} {es : List Event} {cont : State → Host.Outcome State Fault Refusal}

/-! ### What a routine leaves -/

theorem sameRegsBut_link (s : State) : sameRegsBut (· = 7) s (s.setReg 7 s.pc) := fun _ hr => s.reg_setReg_ne s.pc hr

theorem written_afterOutput (s : State) (n : Nat) (es : List Event) :
    written s ((s.setReg 7 s.pc).afterOutput n es) n es :=
  ⟨s.reg_setReg_self 7 s.pc, sameRegsBut_link s, rfl, rfl, fun _ => rfl, rfl, rfl, rfl, rfl⟩

/-- The result write of the byte read, after a link and device operations that left the rest alone. -/
theorem byteTaken_writeResult (h7 : u.reg 7 = s.pc) (hregs : sameRegsBut (· = 7) s u) (hpc : u.pc = s.pc)
    (hstatus : sameStatus s u) (hmem : sameMemory s u) (hext : u.inputExt = s.inputExt) (hinput : u.input = rest)
    (htrace : u.trace = s.trace ++ es) : byteTaken s (u.writeResult 0 (ext16 s.inputExt b)) b rest es := by
  rw [State.writeResult_eq]
  refine ⟨?_, u.reg_setReg_self 0 _, rfl, fun r hr => ?_, hpc, hstatus, hmem, hext, hinput, htrace⟩
  · exact (u.reg_setReg_ne _ (by decide)).trans h7
  · obtain ⟨h0, h7'⟩ := not_or.mp hr
    exact (u.reg_setReg_ne _ h0).trans (hregs r h7')

/-! ### GETC (R201) -/

theorem exec_trapGetc_byte (x : BitVec 4) (h : s.input = .byte b :: rest) : exec (.trapGetc x) s =
    .next ((((s.setReg 7 s.pc).setInput rest).log (.read b)).writeResult 0 (ext16 s.inputExt b)) := by
  rw [exec, execTrapGetc, State.readByte_byte (s := s.trapEntry) h]
  rfl

theorem exec_trapGetc_fail (x : BitVec 4) (h : s.input = .fail :: rest) : exec (.trapGetc x) s =
    .next (((s.setReg 7 s.pc).setInput rest).raise .inputFailure (encode (.trapGetc x)) 0x0020) := by
  rw [exec, execTrapGetc, State.readByte_fail (s := s.trapEntry) h]
  rfl

theorem exec_trapGetc_noKey (x : BitVec 4) (h : s.noKey) : exec (.trapGetc x) s = .next s.held := by
  rw [exec, execTrapGetc, State.readByte_hold (s := s.trapEntry) h]

/-- Settles O33: GETC is its blocking read, by the answer to come. -/
theorem getcResult : Obligations.GetcResult := by
  intro w s hw
  have hdecode := decode_trapGetc hw
  have hir := encode_of_decode hdecode
  rw [hdecode]
  refine ⟨rfl, fun b rest h => ⟨_, exec_trapGetc_byte _ h, ?_, rfl⟩, fun rest h => ⟨_, exec_trapGetc_fail _ h, ?_⟩,
    exec_trapGetc_noKey _⟩
  · exact byteTaken_writeResult (s.reg_setReg_self 7 s.pc) (sameRegsBut_link s) rfl ⟨rfl, rfl⟩ (fun _ => rfl) rfl rfl
      rfl
  · rw [hir]
    exact ⟨stoppedBy_raise (sameRegsBut_link s) rfl rfl (fun _ => rfl) rfl, s.reg_setReg_self 7 s.pc, rfl, rfl, rfl⟩

/-! ### Emitting a list of events after the link -/

theorem emitAll_conclude_ok (h : s.outputOk es.length) : ((s.setReg 7 s.pc).emitAll es).conclude ir vector cont =
    cont ((s.setReg 7 s.pc).afterOutput es.length es) := by
  rw [State.emitAll_done (s := s.setReg 7 s.pc) h, Output.conclude_done]

/-- A routine whose output was done up to the first Fail. -/
theorem outputFails_of_exec (h : exec i s =
    .next (((s.setReg 7 s.pc).afterOutput (k + 1) (es.take k)).raise .outputFailure (encode i) vector)) :
    outputFails i s k vector es :=
  ⟨_, h, stoppedBy_raise (sameRegsBut_link s) rfl rfl (fun _ => rfl) rfl, s.reg_setReg_self 7 s.pc, rfl, rfl, rfl⟩

/-- A routine that emits `es`, however it goes on, fails at its first failing operation. -/
theorem outputFails_of_emitAll (h : exec i s = ((s.setReg 7 s.pc).emitAll es).conclude (encode i) vector cont)
    (hf : s.outputFailsAt k) (hk : k < es.length) : outputFails i s k vector es := by
  refine outputFails_of_exec ?_
  rw [h, State.emitAll_failed (s := s.setReg 7 s.pc) hk hf.1 hf.2, Output.conclude_failed]

/-! ### OUT and HALT (R202, R206) -/

theorem exec_trapOut_eq_emitAll (x : BitVec 4) (s : State) : exec (.trapOut x) s =
    ((s.setReg 7 s.pc).emitAll [.write ((s.reg 0).extractLsb' 0 8), .flush]).conclude
      (encode (.trapOut x)) 0x0021 .next := by
  have hr0 : s.trapEntry.reg 0 = s.reg 0 := s.reg_setReg_ne s.pc (by decide)
  rw [exec, execTrapOut_eq, hr0]
  rfl

theorem exec_trapHalt_eq_emitAll (x : BitVec 4) (s : State) : exec (.trapHalt x) s =
    ((s.setReg 7 s.pc).emitAll [.write 0x48, .write 0x41, .write 0x4C, .write 0x54, .write 0x0A, .flush]).conclude
      (encode (.trapHalt x)) 0x0025 fun u => .next (u.setStatus .halted) :=
  execTrapHalt_eq s x

/-- Settles O34: OUT emits one Write and a Flush. -/
theorem outResult : Obligations.OutResult := by
  intro w s hw hok
  have hdecode := decode_trapOut hw
  rw [hdecode]
  refine ⟨rfl, _, (exec_trapOut_eq_emitAll _ s).trans (emitAll_conclude_ok hok), written_afterOutput s 2 _, rfl, rfl⟩

/-- Settles O38: HALT emits its line and a Flush and then stops the block. -/
theorem haltResult : Obligations.HaltResult := by
  intro w s hw hok
  have hdecode := decode_trapHalt hw
  rw [hdecode]
  exact ⟨rfl, _, (exec_trapHalt_eq_emitAll _ s).trans (emitAll_conclude_ok hok), rfl, rfl, written_afterOutput s 6 _,
    rfl, rfl⟩

/-! ### PUTS and PUTSP (R203, R205) -/

theorem stringEvents_putsBytes (s : State) (n : Nat) : s.stringEvents putsBytes n (s.reg 0) = putsWrites s n := by
  rw [State.stringEvents_eq, putsWrites, List.map_eq_flatMap]
  rfl

theorem putspBytes_writes (w : Word) : (putspBytes w).map Event.write = packedWrites w := by
  unfold putspBytes packedWrites high8
  split <;> rfl

theorem stringEvents_putspBytes (s : State) (n : Nat) : s.stringEvents putspBytes n (s.reg 0) = putspWrites s n := by
  rw [State.stringEvents_eq, putspWrites]
  simp only [putspBytes_writes]

/-- The loop of a string routine, as the routine runs it. -/
def State.stringLoop (s : State) (f : Word → List Byte) : Output :=
  State.outString f Config.memorySize (s.reg 0) (s.setReg 7 s.pc)

theorem exec_trapPuts_eq (x : BitVec 4) (s : State) : exec (.trapPuts x) s =
    ((s.stringLoop putsBytes).andThen State.flush).conclude (encode (.trapPuts x)) 0x0022 .next := by
  have hr0 : s.trapEntry.reg 0 = s.reg 0 := s.reg_setReg_ne s.pc (by decide)
  rw [exec, execTrapPuts, hr0]
  rfl

theorem exec_trapPutsp_eq (x : BitVec 4) (s : State) : exec (.trapPutsp x) s =
    ((s.stringLoop putspBytes).andThen State.flush).conclude (encode (.trapPutsp x)) 0x0024 .next := by
  have hr0 : s.trapEntry.reg 0 = s.reg 0 := s.reg_setReg_ne s.pc (by decide)
  rw [exec, execTrapPutsp, hr0]
  rfl

section
variable {f : Word → List Byte}

/-- A string that ends `n` words on: its Writes and the Flush. -/
theorem stringLoop_flush (hes : s.stringEvents f n (s.reg 0) = es) (hn : n < Config.memorySize)
    (hnz : ∀ j < n, s.memPlain (s.reg 0 + BitVec.ofNat 16 j) ≠ 0) (hz : s.memPlain (s.reg 0 + BitVec.ofNat 16 n) = 0) :
    (s.stringLoop f).andThen State.flush = (s.setReg 7 s.pc).emitAll (es ++ [.flush]) := by
  rw [State.stringLoop, State.outString_terminated (s.setReg 7 s.pc) f (s.reg 0) hn hnz hz, State.flush_fun,
    ← State.emitAll_append, State.stringEvents_setReg, hes]

/-- A Fail among the Writes of words that are not 0x0000, whether or not the string ends after them. -/
theorem stringLoop_failed (hes : s.stringEvents f n (s.reg 0) = es) (hn : n ≤ Config.memorySize)
    (hnz : ∀ j < n, s.memPlain (s.reg 0 + BitVec.ofNat 16 j) ≠ 0) (hf : s.outputFailsAt k) (hk : k < es.length) :
    s.stringLoop f = .failed ((s.setReg 7 s.pc).afterOutput (k + 1) (es.take k)) := by
  subst hes
  rw [← s.stringEvents_setReg 7 s.pc] at hk ⊢
  exact State.outString_failed (s.setReg 7 s.pc) f (s.reg 0) hn hnz hk hf.1 hf.2

theorem stringLoop_endless (hes : s.stringEvents f Config.memorySize (s.reg 0) = es) (hz : ∀ a, s.memPlain a ≠ 0)
    (hok : s.outputOk es.length) : s.stringLoop f = .endless := by
  subst hes
  rw [← s.stringEvents_setReg 7 s.pc] at hok
  exact State.outString_of_no_end (s.setReg 7 s.pc) f _ (s.reg 0) hz hok

end

/-- PUTS on a string that ends `n` words on. -/
theorem exec_trapPuts_terminated (x : BitVec 4) (hn : n < Config.memorySize)
    (hnz : ∀ j < n, s.memPlain (s.reg 0 + BitVec.ofNat 16 j) ≠ 0) (hz : s.memPlain (s.reg 0 + BitVec.ofNat 16 n) = 0) :
    exec (.trapPuts x) s =
      ((s.setReg 7 s.pc).emitAll (putsWrites s n ++ [.flush])).conclude (encode (.trapPuts x)) 0x0022 .next := by
  rw [exec_trapPuts_eq, stringLoop_flush (stringEvents_putsBytes s n) hn hnz hz]

/-- PUTSP on a string that ends `n` words on. -/
theorem exec_trapPutsp_terminated (x : BitVec 4) (hn : n < Config.memorySize)
    (hnz : ∀ j < n, s.memPlain (s.reg 0 + BitVec.ofNat 16 j) ≠ 0) (hz : s.memPlain (s.reg 0 + BitVec.ofNat 16 n) = 0) :
    exec (.trapPutsp x) s =
      ((s.setReg 7 s.pc).emitAll (putspWrites s n ++ [.flush])).conclude (encode (.trapPutsp x)) 0x0024 .next := by
  rw [exec_trapPutsp_eq, stringLoop_flush (stringEvents_putspBytes s n) hn hnz hz]

theorem length_putsWrites (s : State) (n : Nat) : (putsWrites s n).length = n := by
  simp [putsWrites]

theorem length_putsWrites_flush (s : State) (n : Nat) : (putsWrites s n ++ [Event.flush]).length = n + 1 := by
  simp [length_putsWrites]

/-- Settles O35: PUTS emits one Write a word and the Flush. -/
theorem putsResult : Obligations.PutsResult := by
  intro w s n hw hn hnz hz hok
  have hdecode := decode_trapPuts hw
  have hlen := length_putsWrites_flush s n
  rw [hdecode]
  refine ⟨rfl, (s.setReg 7 s.pc).afterOutput (n + 1) (putsWrites s n ++ [.flush]), ?_, ⟨rfl, rfl⟩,
    written_afterOutput s _ _⟩
  rw [exec_trapPuts_terminated _ hn hnz hz, emitAll_conclude_ok (by rwa [hlen]), hlen]

/-- Settles O37: PUTSP emits one or two Writes a word and the Flush. -/
theorem putspResult : Obligations.PutspResult := by
  intro w s n hw hn hnz hz es hok
  have hdecode := decode_trapPutsp hw
  rw [hdecode]
  refine ⟨rfl, (s.setReg 7 s.pc).afterOutput es.length es, ?_, ⟨rfl, rfl⟩, written_afterOutput s _ _⟩
  exact (exec_trapPutsp_terminated _ hn hnz hz).trans (emitAll_conclude_ok hok)

/-- Settles O41: a loop that meets no 0x0000 word and no Fail has no end. -/
theorem stringWithoutEndDiverges : Obligations.StringWithoutEndDiverges := by
  refine fun x s hz => ⟨fun hok => ?_, fun hok => ?_⟩
  · rw [exec_trapPuts_eq, stringLoop_endless (stringEvents_putsBytes s _) hz (by rwa [length_putsWrites])]
    rfl
  · rw [exec_trapPutsp_eq, stringLoop_endless (stringEvents_putspBytes s _) hz hok]
    rfl

/-! ### IN (R204) -/

/-- IN after its prompt: the link, and the prompt's events. -/
def State.prompted (s : State) : State := (s.setReg 7 s.pc).afterOutput 19 promptEvents

/-- IN after its read. -/
def State.promptedByte (s : State) (b : Byte) (rest : List InAnswer) : State :=
  (s.prompted.setInput rest).log (.read b)

theorem exec_trapIn_eq_emitAll (x : BitVec 4) (s : State) : ∃ cont, exec (.trapIn x) s =
    ((s.setReg 7 s.pc).emitAll promptEvents).conclude (encode (.trapIn x)) 0x0023 cont := by
  rw [exec, execTrapIn, State.outBytes_eq]
  exact ⟨_, rfl⟩

theorem State.outBytes_prompt (h : s.outputOk 19) : s.trapEntry.outBytes inPrompt = .done s.prompted := by
  rw [State.outBytes_eq]
  exact State.emitAll_done (s := s.setReg 7 s.pc) (es := promptEvents) h

theorem exec_trapIn_byte (x : BitVec 4) (hok : s.outputOk 19) (h : s.input = .byte b :: rest) : exec (.trapIn x) s =
    ((s.promptedByte b rest).emitAll [.write b, .flush]).conclude (encode (.trapIn x)) 0x0023 fun u =>
      .next (u.writeResult 0 (ext16 u.inputExt b)) := by
  rw [exec, execTrapIn, State.outBytes_prompt hok, Output.conclude_done,
    State.readByte_byte (s := s.prompted) h]
  dsimp only
  rw [State.outByte_eq, State.flush_fun, ← State.emitAll_append]
  rfl

theorem exec_trapIn_fail (x : BitVec 4) (hok : s.outputOk 19) (h : s.input = .fail :: rest) : exec (.trapIn x) s =
    .next ((s.prompted.setInput rest).raise .inputFailure (encode (.trapIn x)) 0x0023) := by
  rw [exec, execTrapIn, State.outBytes_prompt hok, Output.conclude_done,
    State.readByte_fail (s := s.prompted) h]

theorem exec_trapIn_noKey (x : BitVec 4) (hok : s.outputOk 19) (h : s.noKey) : exec (.trapIn x) s = .next s.held := by
  rw [exec, execTrapIn, State.outBytes_prompt hok, Output.conclude_done,
    State.readByte_hold (s := s.prompted) h]

theorem outputOk_append {m n : Nat} (h : s.outputOk (m + n)) :
    s.outputOk m ∧ ∀ a ∈ (s.outAnswers.drop m).take n, a = .ok := by
  rw [State.outputOk, List.take_add] at h
  exact ⟨fun a ha => h a (List.mem_append_left _ ha), fun a ha => h a (List.mem_append_right _ ha)⟩

/-- Settles O36: IN is its prompt, its read, and with a byte the echo and the Flush. -/
theorem inResult : Obligations.InResult := by
  intro w s hw
  have hdecode := decode_trapIn hw
  have hir := encode_of_decode hdecode
  rw [hdecode]
  refine ⟨rfl, fun b rest h hok => ?_, fun rest h hok => ⟨_, exec_trapIn_fail _ hok h, ?_⟩,
    fun h hok => exec_trapIn_noKey _ hok h⟩
  · obtain ⟨hprompt, hecho⟩ := outputOk_append (m := 19) (n := 2) hok
    refine ⟨((s.promptedByte b rest).afterOutput 2 [.write b, .flush]).writeResult 0 (ext16 s.inputExt b), ?_, ?_, ?_⟩
    · rw [exec_trapIn_byte _ hprompt h, State.emitAll_done (es := [.write b, .flush]) hecho]
      rfl
    · exact byteTaken_writeResult (s.reg_setReg_self 7 s.pc) (sameRegsBut_link s) rfl ⟨rfl, rfl⟩ (fun _ => rfl) rfl rfl
        (by simp [State.promptedByte, State.prompted])
    · simp [State.promptedByte, State.prompted]
  · rw [hir]
    exact ⟨stoppedBy_raise (sameRegsBut_link s) rfl rfl (fun _ => rfl) rfl, s.reg_setReg_self 7 s.pc, rfl, rfl, rfl⟩

/-! ### Holding (R115) -/

/-- Settles O42: the Hold puts PC back, and the fetch had moved nothing else. -/
theorem holdChangesNothing : Obligations.HoldChangesNothing := by
  intro s hs hpc hnoKey hw
  have hheld : (s.setPc (s.pc + 1)).held = { s with input := s.input.tail } := by
    rw [State.held_eq, State.setPc_pc, BitVec.add_sub_cancel]
    rfl
  rw [step_of_pc_ne hs hpc, ← hheld]
  rcases hw with hgetc | ⟨hin, hok⟩
  · rw [decode_trapGetc hgetc]
    exact exec_trapGetc_noKey (s := s.setPc _) _ hnoKey
  · rw [decode_trapIn hin]
    exact exec_trapIn_noKey (s := s.setPc _) _ hok hnoKey

/-! ### Output failures (R258) -/

theorem outputFails_trapPuts (x : BitVec 4) (hf : s.outputFailsAt k) (hn : n ≤ Config.memorySize)
    (hnz : ∀ j < n, s.memPlain (s.reg 0 + BitVec.ofNat 16 j) ≠ 0) (hk : k < n) :
    outputFails (.trapPuts x) s k 0x0022 (putsWrites s n) := by
  refine outputFails_of_exec ?_
  rw [exec_trapPuts_eq, stringLoop_failed (stringEvents_putsBytes s n) hn hnz hf (by rwa [length_putsWrites])]
  rfl

theorem outputFails_trapPutsp (x : BitVec 4) (hf : s.outputFailsAt k) (hn : n ≤ Config.memorySize)
    (hnz : ∀ j < n, s.memPlain (s.reg 0 + BitVec.ofNat 16 j) ≠ 0) (hk : k < (putspWrites s n).length) :
    outputFails (.trapPutsp x) s k 0x0024 (putspWrites s n) := by
  refine outputFails_of_exec ?_
  rw [exec_trapPutsp_eq, stringLoop_failed (stringEvents_putspBytes s n) hn hnz hf hk]
  rfl

/-- IN that fails at its echo (`j` = 0) or its Flush (`j` = 1): the byte is consumed and R0 not written. -/
theorem exec_trapIn_echo_failed (x : BitVec 4) {j : Nat} (hf : s.outputFailsAt (19 + j)) (hj : j < 2)
    (h : s.input = .byte b :: rest) : exec (.trapIn x) s =
      .next (((s.promptedByte b rest).afterOutput (j + 1) ([.write b, .flush].take j)).raise .outputFailure
        (encode (.trapIn x)) 0x0023) := by
  obtain ⟨hok, hfail⟩ := hf
  obtain ⟨hprompt, hecho⟩ := outputOk_append hok
  have hanswer : (s.promptedByte b rest).outAnswers[j]? = some .fail := by
    rw [← hfail]
    exact List.getElem?_drop
  rw [exec_trapIn_byte x hprompt h, State.emitAll_failed (es := [.write b, .flush]) hj hecho hanswer]
  rfl

/-- Settles O40: whatever a routine emits, it fails at its first failing operation, with the events before it. -/
theorem outputFailureFaults : Obligations.OutputFailureFaults := by
  refine fun x s k hf => ⟨outputFails_of_emitAll (exec_trapOut_eq_emitAll x s) hf,
    outputFails_of_emitAll (exec_trapHalt_eq_emitAll x s) hf, fun n hn hnz hz => ⟨?_, ?_⟩, fun m hm hnz => ⟨?_, ?_⟩,
    fun hk => ?_, fun b rest h hlo hhi => ?_⟩
  · intro hk
    exact outputFails_of_emitAll (exec_trapPuts_terminated x hn hnz hz) hf
      (lt_of_lt_of_eq hk (length_putsWrites_flush s n).symm)
  · exact outputFails_of_emitAll (exec_trapPutsp_terminated x hn hnz hz) hf
  · exact outputFails_trapPuts x hf hm hnz
  · exact outputFails_trapPutsp x hf hm hnz
  · obtain ⟨cont, hexec⟩ := exec_trapIn_eq_emitAll x s
    exact outputFails_of_emitAll hexec hf hk
  · obtain ⟨j, rfl⟩ := Nat.exists_eq_add_of_le hlo
    have hj : j < 2 := by omega
    refine ⟨_, exec_trapIn_echo_failed x hf hj h, stoppedBy_raise (sameRegsBut_link s) rfl rfl (fun _ => rfl) rfl,
      s.reg_setReg_self 7 s.pc, rfl, ?_, ?_⟩
    · simp [State.promptedByte, State.prompted, Nat.add_assoc]
    · interval_cases j <;> simp [State.promptedByte, State.prompted, promptEvents]

end Sys2Proof.Machine
end

section
/-! SUPPORT. The loader (R275 to R280) and the launch (R270): an image's words are written in order from its origin. -/

namespace Sys2Proof.Machine

open Sys2Proof.Claims

variable {m m' : Memory} {a b n : Nat} {ws : List Word}

/-! ### Writing words in order -/

/-- The memory with the words `ws` written from `a` on. -/
def Memory.writeWords : Memory → Nat → List Word → Memory
  | m, _, [] => m
  | m, a, w :: ws => (m.write a w).writeWords (a + 1) ws

theorem Memory.read_writeWords_outside (h : ¬ (a ≤ b ∧ b - a < ws.length)) : (m.writeWords a ws).read b = m.read b := by
  induction ws generalizing m a with
  | nil => rfl
  | cons w ws ih =>
    have hne : b ≠ a := by
      rintro rfl
      exact h ⟨le_rfl, by simp⟩
    rw [Memory.writeWords, ih (by rw [List.length_cons] at h; omega), Memory.read_write, if_neg hne]

theorem Memory.read_writeWords_inside (hle : a ≤ b) (hlt : b - a < ws.length) :
    (m.writeWords a ws).read b = ws[b - a] := by
  induction ws generalizing m a with
  | nil => exact absurd hlt (Nat.not_lt_zero _)
  | cons w ws ih =>
    rw [Memory.writeWords]
    by_cases hb : b = a
    · subst hb
      rw [Memory.read_writeWords_outside (by omega), Memory.read_write, if_pos rfl]
      simp
    · have hlt' : b - (a + 1) < ws.length := by rw [List.length_cons] at hlt; omega
      have hsub : b - a = b - (a + 1) + 1 := by omega
      rw [ih (by omega) hlt']
      simp only [hsub, List.getElem_cons_succ]

/-- R277: reading back gives the words; every other cell is as before. -/
theorem Memory.read_writeWords (m : Memory) (a b : Nat) (ws : List Word) : (m.writeWords a ws).read b =
    if h : a ≤ b ∧ b - a < ws.length then ws[b - a]'h.2 else m.read b := by
  split
  · next h => exact Memory.read_writeWords_inside h.1 h.2
  · next h => exact Memory.read_writeWords_outside h

/-! ### One image -/

theorem wordOfBytes_extractLsb' (w : Word) : wordOfBytes (w.extractLsb' 8 8) (w.extractLsb' 0 8) = w :=
  (BitVec.extractLsb'_append_extractLsb'_eq_extractLsb' (by decide)).trans BitVec.extractLsb'_eq_self

/-- The payload's words within the bound are written, and loading goes on with the bytes after them. -/
theorem loadPayload_imageBytes (hn : ws.length ≤ n) (extra : List Byte) :
    loadPayload n a (imageBytes ws ++ extra) m =
      loadPayload (n - ws.length) (a + ws.length) extra (m.writeWords a ws) := by
  induction ws generalizing n a m with
  | nil => rfl
  | cons w ws ih =>
    obtain ⟨k, rfl⟩ : ∃ k, n = k + 1 := Nat.exists_eq_add_one_of_ne_zero (Nat.ne_zero_of_lt hn)
    have hk : ws.length ≤ k := Nat.le_of_succ_le_succ hn
    simp only [imageBytes, List.cons_append, loadPayload, wordOfBytes_extractLsb', ih hk, Memory.writeWords,
      List.length_cons, Nat.add_sub_add_right, Nat.add_assoc, Nat.add_comm 1]

theorem loadPayload_nil (n a : Nat) (m : Memory) : loadPayload n a [] m = some m := by
  cases n <;> rfl

/-- R276: the first word of an image is the origin, and it bounds the payload. -/
theorem loadImage_origin (origin : Word) (payload : List Byte) (m : Memory) :
    loadImage (some (origin.extractLsb' 8 8 :: origin.extractLsb' 0 8 :: payload)) m =
      loadPayload (Config.memorySize - origin.toNat) origin.toNat payload m := by
  rw [loadImage, wordOfBytes_extractLsb']

theorem loadImage_imageBytes {origin : Word} (h : origin.toNat + ws.length ≤ Config.memorySize) (extra : List Byte)
    (m : Memory) : loadImage (some (imageBytes (origin :: ws) ++ extra)) m =
      loadPayload (Config.memorySize - origin.toNat - ws.length) (origin.toNat + ws.length) extra
        (m.writeWords origin.toNat ws) :=
  (loadImage_origin origin _ m).trans (loadPayload_imageBytes (by omega) extra)

theorem loadImage_words {origin : Word} (h : origin.toNat + ws.length ≤ Config.memorySize) (m : Memory) :
    loadImage (some (imageBytes (origin :: ws))) m = some (m.writeWords origin.toNat ws) := by
  have hload := loadImage_imageBytes h [] m
  rwa [List.append_nil, loadPayload_nil] at hload

/-- Settles O58: the image loads by writing its words in order. -/
theorem loadedImageReadsBack : Obligations.LoadedImageReadsBack := fun _ ws m h =>
  ⟨_, loadImage_words h m, fun a => m.read_writeWords _ a ws⟩

/-- Settles O59: at the bound the loader stops; before it one byte more is a word cut short. -/
theorem imageLengthEdges : Obligations.ImageLengthEdges := by
  refine fun origin ws m => ⟨fun h extra => ?_, fun h b => ?_, rfl, rfl, fun _ => rfl, ?_⟩
  · have hbound : Config.memorySize - origin.toNat - ws.length = 0 := by rw [Config.memorySize]; omega
    rw [loadImage_imageBytes h.le, loadImage_words h.le, hbound]
    rfl
  · obtain ⟨k, hk⟩ : ∃ k, Config.memorySize - origin.toNat - ws.length = k + 1 :=
      Nat.exists_eq_add_one_of_ne_zero (by rw [Config.memorySize]; omega)
    rw [loadImage_imageBytes h.le, hk]
    rfl
  · exact loadImage_words (ws := []) origin.isLt.le m

/-! ### The images of a launch -/

/-- Loading within the address space keeps memory canonical. -/
theorem loadPayload_wf {bytes : List Byte} (h : loadPayload n a bytes m = some m') (hm : m.wf)
    (ha : a + n ≤ Config.memorySize) : m'.wf := by
  induction n generalizing a bytes m with
  | zero =>
    cases h
    exact hm
  | succ n ih =>
    match bytes, h with
    | [], h =>
      cases h
      exact hm
    | hi :: lo :: rest, h => exact ih h (Memory.wf_write hm (by omega) _) (by omega)

theorem loadImage_wf {img : Image} (h : loadImage img m = some m') (hm : m.wf) : m'.wf := by
  match img, h with
  | some (hi :: lo :: payload), h =>
    have horigin : (wordOfBytes hi lo).toNat < Config.memorySize := (wordOfBytes hi lo).isLt
    exact loadPayload_wf h hm (by omega)

theorem loadImages_wf {images : List Image} (h : loadImages images m = some m') (hm : m.wf) : m'.wf := by
  induction images generalizing m with
  | nil =>
    cases h
    exact hm
  | cons img images ih =>
    obtain ⟨m1, himg, hrest⟩ := Option.bind_eq_some_iff.mp h
    exact ih hrest (loadImage_wf himg hm)

theorem loadImages_append_singleton (images : List Image) (img : Image) (m : Memory) :
    loadImages (images ++ [img]) m = (loadImages images m).bind (loadImage img) := by
  induction images generalizing m with
  | nil => exact Option.bind_fun_some (loadImage img m)
  | cons img' images ih =>
    simp only [List.cons_append, loadImages, Option.bind_assoc]
    exact congrArg _ (funext ih)

theorem loadImages_eq_none {images : List Image} {img : Image} (hmem : img ∈ images)
    (h : ∀ m, loadImage img m = none) (m : Memory) : loadImages images m = none := by
  induction images generalizing m with
  | nil => cases hmem
  | cons img' images ih =>
    rcases List.mem_cons.mp hmem with rfl | hmem
    · rw [loadImages, h m]
      rfl
    · exact Option.bind_eq_none_iff.mpr fun m1 _ => ih hmem m1

/-! ### The launch (R270) -/

/-- The block at its first fetch, with the memory `mem0` and the launch arguments. -/
def launched (mem0 : Memory) (input : List InAnswer) (out : List OutAnswer) (ext : Config.InputExt) : State :=
  { State.reset with mem := mem0, input := input, outAnswers := out, inputExt := ext }

theorem launch_eq_some_iff {images : List Image} {input : List InAnswer} {out : List OutAnswer}
    {ext : Config.InputExt} {s : State} : State.launch images input out ext = some s ↔
      ∃ mem0, loadImages images [] = some mem0 ∧ s = launched mem0 input out ext := by
  rw [State.launch, Option.map_eq_some_iff]
  exact exists_congr fun _ => and_congr_right fun _ => eq_comm

theorem launched_inv {mem0 : Memory} (h : mem0.wf) (input : List InAnswer) (out : List OutAnswer)
    (ext : Config.InputExt) : (launched mem0 input out ext).Inv :=
  ⟨h, .inr (.inl rfl), nofun⟩

/-- Settles O57: the launch loads the images in order into the zero memory and changes nothing else of the reset. -/
theorem launchEstablishesInvariant : Obligations.LaunchEstablishesInvariant := by
  refine fun images input out ext => ⟨fun s => launch_eq_some_iff, fun s h => ?_, fun s origin ws h hfit => ?_,
    fun ⟨img, hmem, hfail⟩ => ?_⟩
  · obtain ⟨mem0, hload, rfl⟩ := launch_eq_some_iff.mp h
    exact ⟨launched_inv (loadImages_wf hload State.wf_reset) input out ext, rfl, resetValues.1, rfl, rfl, rfl⟩
  · obtain ⟨mem0, hload, rfl⟩ := launch_eq_some_iff.mp h
    refine ⟨launched (mem0.writeWords origin.toNat ws) input out ext, launch_eq_some_iff.mpr ⟨_, ?_, rfl⟩,
      fun a => mem0.read_writeWords _ a.toNat ws⟩
    rw [loadImages_append_singleton, hload]
    exact loadImage_words hfit mem0
  · rw [State.launch, loadImages_eq_none hmem hfail]
    rfl

end Sys2Proof.Machine
end
